-- ==== Sys2Proof/Word.lean ====
section
/-! DEFINITION. The words and the small closed sets of names that every other file uses (R13, R16, R19, R40). -/

namespace Sys2Proof

/-- One byte of a file, of a path or of a mode string. -/
abbrev Byte := BitVec 8

/-- A 64-bit operand, position, address or response value (R11, R70). -/
abbrev Word64 := BitVec 64

/-- The 32-bit command word `CMD32` (R72). -/
abbrev CmdWord := BitVec 32

/-- A byte string: a path, a mode string, the content of a file. -/
abbrev Bytes := List Byte

/-- SEEK's whence (R75). The reserved encoding 3 is no whence: the decoder rejects it. -/
inductive Whence where
  | start
  | current
  | fromEnd
  deriving DecidableEq, Repr

/-- The direction of a stream, register `MODE` (R22, R24): 0 = Read, 1 = Write. -/
inductive Mode where
  | read
  | write
  deriving DecidableEq, Repr

end Sys2Proof
end

