-- ==== Sys2Proof/Config.lean ====
section
/-! DEFINITION. What an implementation of the engine fixes (R10, R11): the constants the spec states, and the one
parameter it leaves open, `ENTITY_SIZE`, as a value with no body. -/

namespace Sys2Proof

/-- The open parameter of R11: `ENTITY_SIZE`, a natural number with `ENTITY_SIZE + 16 < 2^64`. -/
structure Config where
  entitySize : Fin 18446744073709551600
  deriving DecidableEq, Repr, Inhabited

/-- `WS_ALIGN` (R10): the alignment unit and the slack in the workspace size, in bytes. -/
def Config.wsAlign : Nat := 16

/-- `MAX_FIELD` (R10): the largest legal field width. -/
def Config.maxField : Nat := 64

/-- `WORKSPACE_SIZE = ENTITY_SIZE + 16` (R91). -/
def Config.workspaceSize (c : Config) : Nat := c.entitySize.val + Config.wsAlign

/-- The configuration of the engine at hand. It has no body: the spec gives `ENTITY_SIZE` no number (R11, N4), so nothing can
be proved of it beyond its range. Assumption log 8. -/
opaque Config.installed : Config

end Sys2Proof
end

