-- ==== Sys2Proof/Syntax.lean ====
section
/-! DEFINITION. The nine commands (R4, R73), one constructor per row of spec/opcode_table.json, each with the fields its
command word carries (R72). The operands `A`, `B`, `PATH` and `MODESTR` travel beside the word (R70) and are latched in the
state. -/

namespace Sys2Proof

/-- A decoded command word. -/
inductive Instr where
  /-- `WSSIZE`, opcode 0x0 (R90). -/
  | wssize
  /-- `OPEN`, opcode 0x1 (R92); `ws` says whether a workspace is supplied in `A` and `B` (R76). -/
  | openFile (ws : Bool)
  /-- `CLOSE`, opcode 0x2 (R98). -/
  | close
  /-- `PUTBIT`, opcode 0x3 (R110). -/
  | putbit
  /-- `PUTBITS`, opcode 0x4 (R111), with the width `W` (R74). -/
  | putbits (w : Nat)
  /-- `GETBIT`, opcode 0x5 (R130). -/
  | getbit
  /-- `GETBITS`, opcode 0x6 (R131), with the width `W` (R74). -/
  | getbits (w : Nat)
  /-- `SEEK`, opcode 0x7 (R150), with the whence `WH` (R75). -/
  | seek (wh : Whence)
  /-- `TELL`, opcode 0x8 (R154). -/
  | tell
  deriving DecidableEq, Repr

end Sys2Proof
end

