-- ==== Sys2Proof/WellFormed.lean ====
section
/-! DEFINITION. Which terms of `Instr` a command word can carry (R74). -/

namespace Sys2Proof

/-- A width field holds 0..255; "Widths above 255 cannot be encoded" (R74). -/
def widthEncodable (w : Nat) : Bool := decide (w ≤ 255)

/-- The instruction has a command word. Every field but a width is encodable by its type. -/
def Instr.wellFormed : Instr → Bool
  | .wssize => true
  | .openFile _ => true
  | .close => true
  | .putbit => true
  | .putbits w => widthEncodable w
  | .getbit => true
  | .getbits w => widthEncodable w
  | .seek _ => true
  | .tell => true

end Sys2Proof
end

