-- ==== Sys2Proof/Decode.lean ====
section
/-! DEFINITION. The decoder of R78, total on every 32-bit word and rejecting by name; the encoder written from the same
tables (R72, R73); and the opcode table as rows (R78). -/

namespace Sys2Proof

/-- Why a command word is illegal (R77, R78). -/
inductive DecodeError where
  /-- `OP` is 0x9..0xF. -/
  | reservedOpcode
  /-- `CMD[31:15]` is not 0. -/
  | reservedBits
  /-- `WS` is set in a command other than OPEN. -/
  | unusedWorkspaceBit
  /-- `WH` is not 0 in a command other than SEEK. -/
  | unusedWhence
  /-- SEEK with `WH = 3`. -/
  | reservedWhence
  /-- `W` is not 0 in a command other than PUTBITS and GETBITS. -/
  | unusedWidth
  deriving DecidableEq, Repr

/-- The answer of the decoder: every word is one or the other (R78). -/
inductive Decoded where
  | legal (i : Instr)
  | illegal (e : DecodeError)
  deriving DecidableEq, Repr

/-! ### Fields of the command word (R72) -/

/-- `OP = CMD[3:0]`. -/
def opField (c : CmdWord) : Nat := c.toNat % 2 ^ 4

/-- `W = CMD[11:4]`. -/
def widthField (c : CmdWord) : Nat := c.toNat / 2 ^ 4 % 2 ^ 8

/-- `WH = CMD[13:12]`. -/
def whenceField (c : CmdWord) : Nat := c.toNat / 2 ^ 12 % 2 ^ 2

/-- `WS = CMD[14]`. -/
def workspaceField (c : CmdWord) : Nat := c.toNat / 2 ^ 14 % 2

/-- `CMD[31:15]`, which must be 0. -/
def reservedField (c : CmdWord) : Nat := c.toNat / 2 ^ 15

/-- The whence a `WH` field names (R75); 3 names none. -/
def whenceOf (n : Nat) : Option Whence :=
  match n with
  | 0 => some .start
  | 1 => some .current
  | 2 => some .fromEnd
  | _ => none

/-- The number of a whence (R75). -/
def whenceCode : Whence → Nat
  | .start => 0
  | .current => 1
  | .fromEnd => 2

/-- The instruction of an opcode, given the other fields (R73), once the checks of R78 on reserved and unused bits are
done. -/
def instrOf (op w wh ws : Nat) : Decoded :=
  match op with
  | 0 => .legal .wssize
  | 1 => .legal (.openFile (ws == 1))
  | 2 => .legal .close
  | 3 => .legal .putbit
  | 4 => .legal (.putbits w)
  | 5 => .legal .getbit
  | 6 => .legal (.getbits w)
  | 7 =>
    match whenceOf wh with
    | some k => .legal (.seek k)
    | none => .illegal .reservedWhence
  | 8 => .legal .tell
  | _ => .illegal .reservedOpcode

/-- `Decode` of R78, its checks in the rule's order. -/
def decode (c : CmdWord) : Decoded :=
  let op := opField c
  if 9 ≤ op then .illegal .reservedOpcode
  else if reservedField c ≠ 0 then .illegal .reservedBits
  else if op ≠ 1 ∧ workspaceField c ≠ 0 then .illegal .unusedWorkspaceBit
  else if op ≠ 7 ∧ whenceField c ≠ 0 then .illegal .unusedWhence
  else if op = 7 ∧ whenceField c = 3 then .illegal .reservedWhence
  else if op ≠ 4 ∧ op ≠ 6 ∧ widthField c ≠ 0 then .illegal .unusedWidth
  else instrOf op (widthField c) (whenceField c) (workspaceField c)

/-! ### The encoder -/

/-- A command word from its four fields (R72); the bits 31:15 are 0. -/
def packFields (op w wh ws : Nat) : CmdWord :=
  BitVec.ofNat 32 (op + w * 2 ^ 4 + wh * 2 ^ 12 + ws * 2 ^ 14)

/-- The command word of a well-formed instruction (R72, R73); a field the opcode does not use is 0 (R77). -/
def encode : Instr → CmdWord
  | .wssize => packFields 0 0 0 0
  | .openFile ws => packFields 1 0 0 (if ws then 1 else 0)
  | .close => packFields 2 0 0 0
  | .putbit => packFields 3 0 0 0
  | .putbits w => packFields 4 w 0 0
  | .getbit => packFields 5 0 0 0
  | .getbits w => packFields 6 w 0 0
  | .seek wh => packFields 7 0 (whenceCode wh) 0
  | .tell => packFields 8 0 0 0

/-! ### The opcode table (spec/opcode_table.json) -/

/-- One row of the opcode table: a word belongs to it when `word AND mask = pattern`. -/
structure OpcodeRow where
  mnemonic : String
  mask : CmdWord
  pattern : CmdWord
  deriving DecidableEq, Repr

def rowWssize : OpcodeRow := ⟨"WSSIZE", 0xFFFFFFFF, 0x00000000⟩
def rowOpen : OpcodeRow := ⟨"OPEN", 0xFFFFBFFF, 0x00000001⟩
def rowClose : OpcodeRow := ⟨"CLOSE", 0xFFFFFFFF, 0x00000002⟩
def rowPutbit : OpcodeRow := ⟨"PUTBIT", 0xFFFFFFFF, 0x00000003⟩
def rowPutbits : OpcodeRow := ⟨"PUTBITS", 0xFFFFF00F, 0x00000004⟩
def rowGetbit : OpcodeRow := ⟨"GETBIT", 0xFFFFFFFF, 0x00000005⟩
def rowGetbits : OpcodeRow := ⟨"GETBITS", 0xFFFFF00F, 0x00000006⟩
def rowSeek : OpcodeRow := ⟨"SEEK", 0xFFFFCFFF, 0x00000007⟩
def rowTell : OpcodeRow := ⟨"TELL", 0xFFFFFFFF, 0x00000008⟩

def opcodeRows : List OpcodeRow :=
  [rowWssize, rowOpen, rowClose, rowPutbit, rowPutbits, rowGetbit, rowGetbits, rowSeek, rowTell]

/-- The row an instruction stands for. -/
def Instr.row : Instr → OpcodeRow
  | .wssize => rowWssize
  | .openFile _ => rowOpen
  | .close => rowClose
  | .putbit => rowPutbit
  | .putbits _ => rowPutbits
  | .getbit => rowGetbit
  | .getbits _ => rowGetbits
  | .seek _ => rowSeek
  | .tell => rowTell

/-- The word belongs to the row. -/
def OpcodeRow.matchesWord (r : OpcodeRow) (c : CmdWord) : Bool := c &&& r.mask == r.pattern

/-- The 32-bit command word whose low `nbits` bits are those of `w` and whose other bits are 0, if one exists. The command
port carries the word as one number (R70, R72), so no byte order enters. Assumption log 15. -/
def tableWord (nbits w : Nat) : Option CmdWord :=
  if w % 2 ^ nbits < 2 ^ 32 then some (BitVec.ofNat 32 (w % 2 ^ nbits)) else none

/-- What the decoder reads from a word of the opcode table. -/
def decodeTableWord (nbits w : Nat) : Option Instr :=
  match tableWord nbits w with
  | none => none
  | some c =>
    match decode c with
    | .legal i => some i
    | .illegal _ => none

end Sys2Proof
end

