-- ==== Sys2Proof/Machine/State.lean ====
section
/-! DEFINITION. The state: the eight context registers (R22), the hidden state of the command interpreter (R33, R34), the
command port (R70), the byte port and the allocator port with whatever answers on them (R41, R42, R51), and the two
sequences an observer sees (R9). Everything is plain data. -/

namespace Sys2Proof.Machine

open Sys2Proof

/-! ### The command port (R70, R83) -/

/-- A command `{CMD, A, B, PATH, MODESTR}` (R70). -/
structure Command where
  word : CmdWord
  a : Word64
  b : Word64
  path : Option Bytes
  modeStr : Option Bytes
  deriving DecidableEq, Repr

/-- The status codes (R170). The codes 8..15 are never produced, so they have no constructor (I15). -/
inductive Status where
  | ok
  | invalidArgument
  | insufficientWorkspace
  | allocationFailed
  | fileOpenFailed
  | wrongMode
  | endOfStream
  | ioError
  deriving DecidableEq, Repr

/-- A response `{STATUS, VALUE}` (R70, R83). -/
structure Response where
  status : Status
  value : Word64
  deriving DecidableEq, Repr

/-- A command the host presented and the response it took. -/
structure Exchange where
  command : Command
  response : Response
  deriving DecidableEq, Repr

/-! ### Port transactions (R42, R51) -/

/-- The answers of `PortOpen`, `PortWrite` and `PortClose`. -/
inductive IoAnswer where
  | ok
  | err
  deriving DecidableEq, Repr

/-- The answers of `PortRead`. -/
inductive ReadAnswer where
  | byte (b : Byte)
  | eof
  | err
  deriving DecidableEq, Repr

/-- The answers of `PortSeek`. -/
inductive SeekAnswer where
  | ok
  | eof
  | err
  deriving DecidableEq, Repr

/-- The answers of `PortTell`. -/
inductive TellAnswer where
  | pos (n : Word64)
  | err
  deriving DecidableEq, Repr

/-- The answers of `Alloc`. An address answers a request for `n` bytes only if the block lies inside the address space
(R51, `AllocAnswer.allowed`). -/
inductive AllocAnswer where
  | addr (a : Word64)
  | fail
  deriving DecidableEq, Repr

/-- A request on either port. -/
inductive Request where
  | alloc (n : Nat)
  | free (a : Word64)
  | portOpen (path : Bytes) (dir : Mode) (rest : Bytes)
  | portRead
  | portWrite (b : Byte)
  | portSeek (off : Int) (wh : Whence)
  | portTell
  | portClose
  deriving DecidableEq, Repr

/-- A completed transaction: a request with its answer. The only answer of `Free` is completion (R51). -/
inductive Transaction where
  | alloc (n : Nat) (r : AllocAnswer)
  | free (a : Word64)
  | portOpen (path : Bytes) (dir : Mode) (rest : Bytes) (r : IoAnswer)
  | portRead (r : ReadAnswer)
  | portWrite (b : Byte) (r : IoAnswer)
  | portSeek (off : Int) (wh : Whence) (r : SeekAnswer)
  | portTell (r : TellAnswer)
  | portClose (r : IoAnswer)
  deriving DecidableEq, Repr

/-! ### The agents at the other end of the ports (R8, R41) -/

/-- A byte device under no law (R41): the answers it will give, one queue for each transaction. An empty queue is an answer
that has not come (R43). Assumption log 2. -/
structure Script where
  opens : List IoAnswer := []
  reads : List ReadAnswer := []
  writes : List IoAnswer := []
  seeks : List SeekAnswer := []
  tells : List TellAnswer := []
  closes : List IoAnswer := []
  deriving DecidableEq, Repr

/-- The reference byte device (R50): named files, the name of the file that is open, and the position. -/
structure RefDevice where
  files : List (Bytes × Bytes)
  current : Option Bytes
  pos : Nat
  deriving DecidableEq, Repr

/-- What answers on the byte port. The engine cannot tell which it is. -/
inductive Device where
  | scripted (d : Script)
  | reference (d : RefDevice)
  deriving DecidableEq, Repr

/-- What answers on the allocator port (R51): the answers to `Alloc` still to come, and how many `Free` requests it will
complete. -/
structure Allocator where
  allocs : List AllocAnswer := []
  frees : Nat := 0
  deriving DecidableEq, Repr

/-! ### The engine -/

/-- The context registers (R22). The widths are the rule's; a register of width 1 is a `Bool`, or a `Mode`. -/
structure Regs where
  /-- `ACTIVE` (R23): a stream is open. -/
  active : Bool
  /-- `MODE` (R24). -/
  mode : Mode
  /-- `BUF` (R25): the partial-byte accumulator. -/
  buf : BitVec 8
  /-- `CNT` (R26): the pending-bit count. -/
  cnt : BitVec 4
  /-- `OWNS` (R27): the workspace came from the allocator. -/
  owns : Bool
  /-- `EOFS` (R28): a fetch has reported end-of-file. -/
  eofs : Bool
  /-- `FAULT` (R29): a byte transfer failed. -/
  fault : Bool
  /-- `WSBASE` (R30): the start of the workspace. -/
  wsbase : Word64
  deriving DecidableEq, Repr

/-- The reset values of R38, which CLOSE restores (R98). -/
def Regs.reset : Regs :=
  { active := false, mode := .read, buf := 0, cnt := 0, owns := false, eofs := false, fault := false, wsbase := 0 }

/-- The command a `PortWrite` in flight belongs to, with the locals still needed after it (R33): `w` and `v` of PUTBITS. -/
inductive WriteFor where
  | putbit
  | putbits (w : BitVec 7) (v : Word64)
  | close
  deriving DecidableEq, Repr

/-- The command a `PortRead` in flight belongs to, with its live locals (R33): `w` and `res` of GETBITS. -/
inductive ReadFor where
  | getbit
  | getbits (w : BitVec 7) (res : Word64)
  deriving DecidableEq, Repr

/-- The command a `Free` in flight belongs to, with its live locals (R33): `base` of an OPEN that failed. -/
inductive FreeFor where
  | failedOpen (base : Word64)
  | close
  deriving DecidableEq, Repr

/-- The states of the command interpreter (R34). A `WAIT` state carries the locals of R33 that the command reads after the
answer. -/
inductive Fsm where
  | idle
  | exec
  | waitAlloc (dir : Mode)
  | waitOpen (dir : Mode) (owns : Bool) (base : Word64)
  | waitWrite (k : WriteFor)
  | waitRead (k : ReadFor)
  | waitSeek (wh : Whence)
  | waitTell
  | waitClose
  | waitFree (k : FreeFor)
  | resp
  deriving DecidableEq, Repr

/-- The file the byte port is bound to (R31, R44). -/
structure FileBinding where
  path : Bytes
  dir : Mode
  rest : Bytes
  deriving DecidableEq, Repr

structure State where
  /-- The configuration: constant, no step writes it (R11). -/
  cfg : Config
  /-- The context registers (R22). -/
  regs : Regs
  /-- The FSM state and the live locals (R33, R34). -/
  fsm : Fsm
  /-- The latched command word and operands (R33). -/
  latched : Option Command
  /-- The response offered to the host and not yet taken (R70, R190). -/
  response : Option Response
  /-- The file the byte port is bound to (R31). -/
  file : Option FileBinding
  /-- Input: the commands the hosts present, in the order the port will accept them (R70, R185). -/
  offered : List Command
  /-- Input: the host takes an offered response (R70). -/
  hostReady : Bool
  /-- Input: the reset line (R190). -/
  resetLine : Bool
  /-- The byte device (R42). -/
  device : Device
  /-- The allocator (R51). -/
  allocator : Allocator
  /-- Observation: the commands with the responses the host took, oldest first (R9). -/
  exchanges : List Exchange
  /-- Observation: the completed transactions on both ports, oldest first (R9). -/
  traffic : List Transaction
  deriving DecidableEq, Repr

/-! ### Stops -/

/-- Why the machine stops. Each is raised only in a state that no run reaches and for which the spec gives no effect; all are
SAFE. Errors of the spec are no faults: they are responses (R173). Assumption log 9. -/
inductive Fault where
  /-- PUTBIT on an open, unfaulted Write stream with `CNT = 0`, where `CNT - 1` is no unsigned number (R14); R26 says the
  value cannot occur there. Raised by `execPutbit`. Safe. -/
  | countUnderflow
  /-- The bound on the turns of the PUTBITS or GETBITS loop is used up. It is large enough in every state, so this is never
  raised. Safe. -/
  | loopBound
  /-- The FSM is in `EXEC` and no command is latched, against R34. Raised by the engine's step. Safe. -/
  | noCommandLatched
  deriving DecidableEq, Repr

/-- Why the model gives no meaning. -/
inductive Refusal where
  /-- The instruction has no meaning yet; raised by `exec`'s arm alone. Safe. No arm raises it. -/
  | notModelled (mnemonic : String)
  deriving DecidableEq, Repr

/-- The outcome of a meaning or of a step. -/
abbrev Outcome := Host.Outcome State Fault Refusal

/-- The machine right after power-on (R38, R190): the registers at their reset values, the FSM in `IDLE`, nothing latched, no
response. The inputs are at rest: no command presented, no answer given. Assumption log 5. -/
def State.reset : State :=
  { cfg := Config.installed
    regs := Regs.reset
    fsm := .idle
    latched := none
    response := none
    file := none
    offered := []
    hostReady := true
    resetLine := false
    device := .scripted {}
    allocator := {}
    exchanges := []
    traffic := [] }

end Sys2Proof.Machine
end

