-- ==== Sys2Proof/Machine/Device.lean ====
section
/-! DEFINITION. How each agent at the other end of a port answers. `none` is "no answer yet" (R43). -/

namespace Sys2Proof.Machine

open Sys2Proof

/-! ### The reference byte device (R50) -/

/-- The content of the named file, if there is one. -/
def lookupFile (name : Bytes) : List (Bytes × Bytes) → Option Bytes
  | [] => none
  | (n, f) :: rest => if n = name then some f else lookupFile name rest

/-- The named file with a new content; a name not there yet is added at the end. -/
def storeFile (name content : Bytes) : List (Bytes × Bytes) → List (Bytes × Bytes)
  | [] => [(name, content)]
  | (n, f) :: rest => if n = name then (n, content) :: rest else (n, f) :: storeFile name content rest

/-- Byte `b` at position `p` of `F`: zero bytes fill a gap before `p`, a byte already there is replaced (R50). -/
def writeAt (F : Bytes) (p : Nat) (b : Byte) : Bytes :=
  F.take p ++ List.replicate (p - F.length) 0 ++ b :: F.drop (p + 1)

/-- `PortOpen` of R50: Read needs the file to exist, Write creates or empties it. -/
def RefDevice.openFile (d : RefDevice) (path : Bytes) (dir : Mode) : IoAnswer × RefDevice :=
  match dir with
  | .read =>
    match lookupFile path d.files with
    | some _ => (.ok, { d with current := some path, pos := 0 })
    | none => (.err, { d with current := none, pos := 0 })
  | .write => (.ok, { files := storeFile path [] d.files, current := some path, pos := 0 })

/-- The content `F` of the file that is open; none if no file is. -/
def RefDevice.content (d : RefDevice) : Option Bytes :=
  match d.current with
  | none => none
  | some name => lookupFile name d.files

/-- `PortRead` of R50. -/
def RefDevice.read (d : RefDevice) : Option (ReadAnswer × RefDevice) :=
  match d.content with
  | none => none
  | some F =>
    match F[d.pos]? with
    | some b => some (.byte b, { d with pos := d.pos + 1 })
    | none => some (.eof, d)

/-- `PortWrite` of R50. -/
def RefDevice.write (d : RefDevice) (b : Byte) : Option (IoAnswer × RefDevice) :=
  match d.current with
  | none => none
  | some name =>
    match lookupFile name d.files with
    | none => none
    | some F => some (.ok, { d with files := storeFile name (writeAt F d.pos b) d.files, pos := d.pos + 1 })

/-- `PortSeek` of R50. -/
def RefDevice.seek (d : RefDevice) (off : Int) (wh : Whence) : Option (SeekAnswer × RefDevice) :=
  match d.content with
  | none => none
  | some F =>
    let base : Int :=
      match wh with
      | .start => 0
      | .current => d.pos
      | .fromEnd => F.length
    if base + off < 0 then some (.err, d) else some (.ok, { d with pos := (base + off).toNat })

/-- `PortTell` of R50. A position that is no 64-bit number cannot be given (D16). Assumption log 13. -/
def RefDevice.tell (d : RefDevice) : Option (TellAnswer × RefDevice) :=
  match d.current with
  | none => none
  | some _ => some (if d.pos < 2 ^ 64 then .pos (BitVec.ofNat 64 d.pos) else .err, d)

/-- `PortClose` of R50: the content stays. -/
def RefDevice.close (d : RefDevice) : RefDevice := { d with current := none }

/-! ### The byte port (R42) -/

def Device.openFile (d : Device) (path : Bytes) (dir : Mode) : Option (IoAnswer × Device) :=
  match d with
  | .scripted q =>
    match q.opens with
    | [] => none
    | r :: rest => some (r, .scripted { q with opens := rest })
  | .reference f => some ((f.openFile path dir).1, .reference (f.openFile path dir).2)

def Device.read (d : Device) : Option (ReadAnswer × Device) :=
  match d with
  | .scripted q =>
    match q.reads with
    | [] => none
    | r :: rest => some (r, .scripted { q with reads := rest })
  | .reference f =>
    match f.read with
    | none => none
    | some (r, f') => some (r, .reference f')

def Device.write (d : Device) (b : Byte) : Option (IoAnswer × Device) :=
  match d with
  | .scripted q =>
    match q.writes with
    | [] => none
    | r :: rest => some (r, .scripted { q with writes := rest })
  | .reference f =>
    match f.write b with
    | none => none
    | some (r, f') => some (r, .reference f')

def Device.seek (d : Device) (off : Int) (wh : Whence) : Option (SeekAnswer × Device) :=
  match d with
  | .scripted q =>
    match q.seeks with
    | [] => none
    | r :: rest => some (r, .scripted { q with seeks := rest })
  | .reference f =>
    match f.seek off wh with
    | none => none
    | some (r, f') => some (r, .reference f')

def Device.tell (d : Device) : Option (TellAnswer × Device) :=
  match d with
  | .scripted q =>
    match q.tells with
    | [] => none
    | r :: rest => some (r, .scripted { q with tells := rest })
  | .reference f =>
    match f.tell with
    | none => none
    | some (r, f') => some (r, .reference f')

def Device.close (d : Device) : Option (IoAnswer × Device) :=
  match d with
  | .scripted q =>
    match q.closes with
    | [] => none
    | r :: rest => some (r, .scripted { q with closes := rest })
  | .reference f => some (.ok, .reference f.close)

/-! ### The allocator port (R51) -/

/-- The answer is one a request for `n` bytes can have: `ADDR(a)` with `a + n <= 2^64`, or `FAIL` (R51). -/
def AllocAnswer.allowed (n : Nat) : AllocAnswer → Bool
  | .addr a => decide (a.toNat + n ≤ 2 ^ 64)
  | .fail => true

/-- `Alloc(n)`. An entry that R51 does not allow is no answer, and the request stays unanswered. Assumption log 11. -/
def Allocator.alloc (n : Nat) (m : Allocator) : Option (AllocAnswer × Allocator) :=
  match m.allocs with
  | [] => none
  | r :: rest => if r.allowed n then some (r, { m with allocs := rest }) else none

def Allocator.free (m : Allocator) : Option Allocator :=
  match m.frees with
  | 0 => none
  | n + 1 => some { m with frees := n }

end Sys2Proof.Machine
end

