-- ==== Sys2Proof/Machine/Flags.lean ====
section
/-! DEFINITION. The flags `EOFS` and `FAULT` and the counter `CNT` with its accumulator `BUF`: every update the command rules
make to them. Arithmetic is on natural numbers and is cut to the register's width where it is written (R14). -/

namespace Sys2Proof.Machine

open Sys2Proof

/-- `v mod 2^n` (R14). -/
def lowBits (n v : Nat) : Nat := v % 2 ^ n

/-- The count `CNT` starts from in a mode: 0 for Read, 8 for Write (R95, R151). -/
def freshCount : Mode → BitVec 4
  | .read => 0
  | .write => 8

/-- `EOFS <- 1`: a fetch reported end-of-file (R28, R48). -/
def Regs.noteEof (r : Regs) : Regs := { r with eofs := true }

/-- `EOFS <- 0`: a SEEK succeeded (R28, R150). -/
def Regs.clearEof (r : Regs) : Regs := { r with eofs := false }

/-- `FAULT <- 1`: a fetch failed (R29, R136). -/
def Regs.fetchFailed (r : Regs) : Regs := { r with fault := true }

/-- `CNT <- 0; FAULT <- 1`: an emit failed; `BUF` keeps the byte that failed (R115). -/
def Regs.emitFailed (r : Regs) : Regs := { r with cnt := 0, fault := true }

/-- `BUF <- 0x00; CNT <- 8`: an emit succeeded (R110, R111). -/
def Regs.emitted (r : Regs) : Regs := { r with buf := 0, cnt := 8 }

/-- PUTBIT's update for the bit `b`: `CNT <- CNT - 1; BUF <- BUF | (b << CNT)` (R110). -/
def Regs.placeBit (b : Nat) (r : Regs) : Regs :=
  { r with
    cnt := BitVec.ofNat 4 (r.cnt.toNat - 1)
    buf := BitVec.ofNat 8 (r.buf.toNat ||| (b <<< (r.cnt.toNat - 1))) }

/-- The PUTBITS loop's update: the next `CNT` bits of the field `v`, of which `w` stay, fill `BUF[CNT-1:0]` (R111). -/
def Regs.fillByte (w v : Nat) (r : Regs) : Regs :=
  { r with buf := BitVec.ofNat 8 (r.buf.toNat ||| lowBits r.cnt.toNat (v >>> w)) }

/-- PUTBITS after its loop: the last `w` bits of the field go to the highest unfilled places (R111). -/
def Regs.fillRest (w v : Nat) (r : Regs) : Regs :=
  { r with
    cnt := BitVec.ofNat 4 (r.cnt.toNat - w)
    buf := BitVec.ofNat 8 (r.buf.toNat ||| (lowBits w v <<< (r.cnt.toNat - w))) }

/-- `BUF <- b; CNT <- n`: a fetched byte of which `n` bits stay unconsumed (R130: 7, R131: 8). -/
def Regs.load (b : Byte) (n : BitVec 4) (r : Regs) : Regs := { r with buf := b, cnt := n }

/-- `CNT <- CNT - n`: `n` bits consumed (R130, R131). -/
def Regs.consume (n : Nat) (r : Regs) : Regs := { r with cnt := BitVec.ofNat 4 (r.cnt.toNat - n) }

/-- `CNT <- 0`: every buffered bit consumed (R131). -/
def Regs.drain (r : Regs) : Regs := { r with cnt := 0 }

/-- The buffered bit at place `i`, as a 64-bit value (R130). -/
def Regs.bitAt (r : Regs) (i : Nat) : Word64 := BitVec.ofNat 64 (lowBits 1 (r.buf.toNat >>> i))

/-- The GETBITS result after every unconsumed bit is put above the `w` still missing (R131). -/
def Regs.gatherAll (r : Regs) (w : Nat) (res : Word64) : Word64 :=
  BitVec.ofNat 64 (res.toNat ||| (lowBits r.cnt.toNat r.buf.toNat <<< w))

/-- The GETBITS result after its last `w` bits, the top ones of those unconsumed (R131, C5). -/
def Regs.gatherTop (r : Regs) (w : Nat) (res : Word64) : Word64 :=
  BitVec.ofNat 64 (res.toNat ||| lowBits w (r.buf.toNat >>> (r.cnt.toNat - w)))

/-- SEEK's discard: `BUF <- 0x00` and `CNT` back to the mode's fresh value (R151). -/
def Regs.discard (r : Regs) : Regs := { r with buf := 0, cnt := freshCount r.mode }

/-- The context a successful OPEN leaves (R92, R95). -/
def Regs.opened (dir : Mode) (owns : Bool) (base : Word64) : Regs :=
  { active := true, mode := dir, buf := 0, cnt := freshCount dir, owns := owns, eofs := false, fault := false,
    wsbase := base }

end Sys2Proof.Machine
end

