-- ==== Sys2Proof/Machine/Operands.lean ====
section
/-! DEFINITION. How a command reads its operands (R71, R80, R81, R82) and how statuses are numbered (R83, R170). -/

namespace Sys2Proof.Machine

open Sys2Proof

/-- The number of a status (R83, R170). -/
def Status.code : Status → BitVec 4
  | .ok => 0
  | .invalidArgument => 1
  | .insufficientWorkspace => 2
  | .allocationFailed => 3
  | .fileOpenFailed => 4
  | .wrongMode => 5
  | .endOfStream => 6
  | .ioError => 7

/-- Operand `A` of the latched command; 0 if none is latched, which no run reaches. Assumption log 12. -/
def State.operandA (s : State) : Word64 :=
  match s.latched with
  | some c => c.a
  | none => 0

/-- Operand `B` of the latched command. -/
def State.operandB (s : State) : Word64 :=
  match s.latched with
  | some c => c.b
  | none => 0

/-- Operand `PATH` of the latched command; `none` is "absent" (R70). -/
def State.operandPath (s : State) : Option Bytes :=
  match s.latched with
  | some c => c.path
  | none => none

/-- Operand `MODESTR` of the latched command; `none` is "absent" (R70). -/
def State.operandMode (s : State) : Option Bytes :=
  match s.latched with
  | some c => c.modeStr
  | none => none

/-- PUTBIT's bit: `(A != 0) ? 1 : 0` (R80). -/
def operandBit (a : Word64) : Nat := if a = 0 then 0 else 1

/-- PUTBITS's field: `A mod 2^w` (R80, R113). -/
def operandField (w : Nat) (a : Word64) : Word64 := BitVec.ofNat 64 (a.toNat % 2 ^ w)

/-- SEEK's offset: `sext_64(A)` (R80). -/
def operandOffset (a : Word64) : Int := a.toInt

/-- The direction the mode string selects: `'r'` is 0x72, `'w'` is 0x77; nothing else selects one (R82, R96). -/
def modeDirection : Bytes → Option Mode
  | [] => none
  | ch :: _ => if ch = 0x72 then some .read else if ch = 0x77 then some .write else none

/-- `MODESTR[1..]`, passed on unexamined (R82, R96). -/
def modeRest : Bytes → Bytes
  | [] => []
  | _ :: rest => rest

/-- `PATH` as `PortOpen` gets it, once OPEN has checked that it is present. -/
def State.openPath (s : State) : Bytes := s.operandPath.getD []

/-- `MODESTR[1..]` as `PortOpen` gets it, once OPEN has checked that it is present. -/
def State.openRest (s : State) : Bytes := modeRest (s.operandMode.getD [])

end Sys2Proof.Machine
end

