-- ==== Sys2Proof/Machine/Ops.lean ====
section
/-! DEFINITION. The operations every command is built from: answering, failing, waiting, and the eight port transactions
(R14, R15, R42, R51). -/

namespace Sys2Proof.Machine

open Sys2Proof

/-- The least multiple of 16 that is at least `a`, on unbounded integers (R14). -/
def alignUp16 (a : Nat) : Nat := (a + 15) / 16 * 16

/-- The handle of a workspace that starts at `base` (R93). It is a 64-bit number as it stands: a supplied and an allocated
workspace both lie inside the address space (R51, R94). -/
def placementHandle (base : Word64) : Word64 := BitVec.ofNat 64 (alignUp16 base.toNat)

/-- The state with other context registers. -/
def State.setRegs (r : Regs) (s : State) : State := { s with regs := r }

/-- The FSM in `RESP` with a response offered to the host (R34, R70). -/
def State.respond (st : Status) (v : Word64) (s : State) : State :=
  { s with fsm := .resp, response := some ⟨st, v⟩ }

/-- The FSM in a `WAIT` state: the transaction is issued and its answer has not come (R34, R43). -/
def State.park (f : Fsm) (s : State) : State := { s with fsm := f }

/-- `respond Ok(v)` (R14). -/
def answer (v : Word64) (s : State) : Outcome := .next (s.respond .ok v)

/-- `raise E()` (R14, R173, R176): the one way a command ends in an error. Writes made before it stand; the response is the
status with value 0; nothing is saved and no vector is taken. -/
def raise (st : Status) (s : State) : Outcome := .next (s.respond st 0)

/-! ### Transactions: the answer with the state after it, or `none` while there is no answer -/

/-- A byte-port transaction done: the device has moved on and the observer has seen it. -/
def State.transacted (d : Device) (x : Transaction) (s : State) : State :=
  { s with device := d, traffic := s.traffic ++ [x] }

/-- An allocator-port transaction done. -/
def State.allocated (m : Allocator) (x : Transaction) (s : State) : State :=
  { s with allocator := m, traffic := s.traffic ++ [x] }

/-- The byte port bound to a file, or to none (R31). -/
def State.bind (f : Option FileBinding) (s : State) : State := { s with file := f }

/-- The binding `PortOpen` leaves: the file on `OK`, no file on `ERR` (R44). -/
def bindingAfterOpen (path : Bytes) (dir : Mode) (rest : Bytes) : IoAnswer → Option FileBinding
  | .ok => some ⟨path, dir, rest⟩
  | .err => none

/-- `Alloc(WORKSPACE_SIZE)` (R51). -/
def State.alloc (s : State) : Option (AllocAnswer × State) :=
  match s.allocator.alloc s.cfg.workspaceSize with
  | none => none
  | some (r, m) => some (r, s.allocated m (.alloc s.cfg.workspaceSize r))

/-- `Free(a)` (R51). -/
def State.free (a : Word64) (s : State) : Option State :=
  match s.allocator.free with
  | none => none
  | some m => some (s.allocated m (.free a))

/-- `PortOpen(path, dir, rest)` (R44). -/
def State.portOpen (path : Bytes) (dir : Mode) (rest : Bytes) (s : State) : Option (IoAnswer × State) :=
  match s.device.openFile path dir with
  | none => none
  | some (r, d) =>
    some (r, (s.transacted d (.portOpen path dir rest r)).bind (bindingAfterOpen path dir rest r))

/-- `PortRead()` (R45). -/
def State.portRead (s : State) : Option (ReadAnswer × State) :=
  match s.device.read with
  | none => none
  | some (r, d) => some (r, s.transacted d (.portRead r))

/-- `PortWrite(b)` (R46). -/
def State.portWrite (b : Byte) (s : State) : Option (IoAnswer × State) :=
  match s.device.write b with
  | none => none
  | some (r, d) => some (r, s.transacted d (.portWrite b r))

/-- `PortSeek(off, wh)` (R47). -/
def State.portSeek (off : Int) (wh : Whence) (s : State) : Option (SeekAnswer × State) :=
  match s.device.seek off wh with
  | none => none
  | some (r, d) => some (r, s.transacted d (.portSeek off wh r))

/-- `PortTell()` (R49). -/
def State.portTell (s : State) : Option (TellAnswer × State) :=
  match s.device.tell with
  | none => none
  | some (r, d) => some (r, s.transacted d (.portTell r))

/-- `PortClose()` (R49): afterwards the port is bound to no file, whatever the answer (R31). -/
def State.portClose (s : State) : Option (IoAnswer × State) :=
  match s.device.close with
  | none => none
  | some (r, d) => some (r, (s.transacted d (.portClose r)).bind none)

/-- `Fetch()` (R48): the one way a byte is read. While `EOFS = 1` it answers end-of-file and issues nothing. -/
def State.fetch (s : State) : Option (ReadAnswer × State) :=
  if s.regs.eofs then some (.eof, s)
  else
    match s.portRead with
    | none => none
    | some (.eof, s') => some (.eof, s'.setRegs s'.regs.noteEof)
    | some (.byte b, s') => some (.byte b, s')
    | some (.err, s') => some (.err, s')

/-! ### What is outstanding (R9, R43) -/

/-- The request a `WAIT` state has issued and has no answer for. -/
def State.outstanding (s : State) : Option Request :=
  match s.fsm with
  | .idle => none
  | .exec => none
  | .waitAlloc _ => some (.alloc s.cfg.workspaceSize)
  | .waitOpen dir _ _ => some (.portOpen s.openPath dir s.openRest)
  | .waitWrite _ => some (.portWrite s.regs.buf)
  | .waitRead _ => some .portRead
  | .waitSeek wh => some (.portSeek (operandOffset s.operandA) wh)
  | .waitTell => some .portTell
  | .waitClose => some .portClose
  | .waitFree (.failedOpen base) => some (.free base)
  | .waitFree .close => some (.free s.regs.wsbase)
  | .resp => none

/-- The request of a completed transaction. -/
def Transaction.request : Transaction → Request
  | .alloc n _ => .alloc n
  | .free a => .free a
  | .portOpen path dir rest _ => .portOpen path dir rest
  | .portRead _ => .portRead
  | .portWrite b _ => .portWrite b
  | .portSeek off wh _ => .portSeek off wh
  | .portTell _ => .portTell
  | .portClose _ => .portClose

/-- The agent at the other end has an answer to the request. -/
def State.answers (s : State) : Request → Bool
  | .alloc n => (s.allocator.alloc n).isSome
  | .free _ => s.allocator.free.isSome
  | .portOpen path dir _ => (s.device.openFile path dir).isSome
  | .portRead => s.device.read.isSome
  | .portWrite b => (s.device.write b).isSome
  | .portSeek off wh => (s.device.seek off wh).isSome
  | .portTell => s.device.tell.isSome
  | .portClose => s.device.close.isSome

end Sys2Proof.Machine
end

