-- ==== Sys2Proof/Machine/Lifecycle.lean ====
section
/-! DEFINITION. WSSIZE, OPEN and CLOSE (spec/40_lifecycle.md). A command is cut into stages at its transactions, so that the
stage of a transaction also goes on from the `WAIT` state it leaves when there is no answer (R34). -/

namespace Sys2Proof.Machine

open Sys2Proof

/-! ### WSSIZE (R90) -/

def execWssize (s : State) : Outcome := answer (BitVec.ofNat 64 s.cfg.workspaceSize) s

/-! ### OPEN (R92) -/

/-- `Free(base)` after a failed `PortOpen` (R97). -/
def openFree (base : Word64) (s : State) : Outcome :=
  match s.free base with
  | none => .next (s.park (.waitFree (.failedOpen base)))
  | some s' => raise .fileOpenFailed s'

/-- `PortOpen` and what follows it. -/
def openPort (dir : Mode) (owns : Bool) (base : Word64) (s : State) : Outcome :=
  match s.portOpen s.openPath dir s.openRest with
  | none => .next (s.park (.waitOpen dir owns base))
  | some (.err, s') => if owns then openFree base s' else raise .fileOpenFailed s'
  | some (.ok, s') => answer (placementHandle base) (s'.setRegs (Regs.opened dir owns base))

/-- `Alloc` and what follows it, when no workspace is supplied. -/
def openAlloc (dir : Mode) (s : State) : Outcome :=
  match s.alloc with
  | none => .next (s.park (.waitAlloc dir))
  | some (.fail, s') => raise .allocationFailed s'
  | some (.addr a, s') => openPort dir true a s'

/-- The checks of a supplied workspace (R94 steps 4 and 5) and what follows them. -/
def openSupplied (dir : Mode) (s : State) : Outcome :=
  if s.operandB.toNat < s.cfg.workspaceSize then raise .insufficientWorkspace s
  else if 2 ^ 64 < s.operandA.toNat + s.operandB.toNat then raise .invalidArgument s
  else openPort dir false s.operandA s

def execOpen (ws : Bool) (s : State) : Outcome :=
  if s.regs.active then raise .invalidArgument s
  else
    match s.operandPath, s.operandMode with
    | none, _ => raise .invalidArgument s
    | some _, none => raise .invalidArgument s
    | some _, some m =>
      match modeDirection m with
      | none => raise .invalidArgument s
      | some dir => if ws then openSupplied dir s else openAlloc dir s

/-! ### CLOSE (R98) -/

/-- Every register back to its reset value, and Ok (R98, R100). -/
def closeDone (s : State) : Outcome := answer 0 (s.setRegs Regs.reset)

/-- `Free(WSBASE)` of an owned workspace. -/
def closeFree (s : State) : Outcome :=
  match s.free s.regs.wsbase with
  | none => .next (s.park (.waitFree .close))
  | some s' => closeDone s'

/-- `PortClose()`, its answer ignored, and what follows it. -/
def closePort (s : State) : Outcome :=
  match s.portClose with
  | none => .next (s.park .waitClose)
  | some (_, s') => if s'.regs.owns then closeFree s' else closeDone s'

/-- The flush `PortWrite(BUF)`, its answer ignored (R99, R100). -/
def closeFlush (s : State) : Outcome :=
  match s.portWrite s.regs.buf with
  | none => .next (s.park (.waitWrite .close))
  | some (_, s') => closePort s'

/-- CLOSE has a partial byte to flush: `MODE = Write`, `FAULT = 0` and `CNT != 8` (R98). -/
def Regs.flushPending (r : Regs) : Bool := r.mode == .write && !r.fault && r.cnt != 8

def execClose (s : State) : Outcome :=
  if !s.regs.active then answer 0 s
  else if s.regs.flushPending then closeFlush s
  else closePort s

end Sys2Proof.Machine
end

