-- ==== Sys2Proof/Machine/WritePath.lean ====
section
/-! DEFINITION. PUTBIT and PUTBITS (spec/41_write_path.md). -/

namespace Sys2Proof.Machine

open Sys2Proof

/-- The turns a fill or drain loop over `w` bits is given. After its first turn every turn moves 8 bits, so they suffice. -/
def loopFuel (w : Nat) : Nat := w + 2

/-! ### PUTBIT (R110) -/

/-- The emit of a byte that a PUTBIT completed. -/
def putbitEmit (s : State) : Outcome :=
  match s.portWrite s.regs.buf with
  | none => .next (s.park (.waitWrite .putbit))
  | some (.err, s') => raise .ioError (s'.setRegs s'.regs.emitFailed)
  | some (.ok, s') => answer 0 (s'.setRegs s'.regs.emitted)

/-- The bit goes to its place; a full byte is emitted. -/
def putbitPlace (s : State) : Outcome :=
  let r := s.regs.placeBit (operandBit s.operandA)
  if r.cnt = 0 then putbitEmit (s.setRegs r) else answer 0 (s.setRegs r)

def execPutbit (s : State) : Outcome :=
  if !s.regs.active then raise .invalidArgument s
  else if s.regs.mode ≠ .write then raise .wrongMode s
  else if s.regs.fault then raise .ioError s
  else if s.regs.cnt = 0 then .fault .countUnderflow
  else putbitPlace s

/-! ### PUTBITS (R111) -/

/-- The emit of the byte in `BUF`, with `w` bits of the field `v` still to place; `loop` goes on after it. -/
def putbitsEmit (loop : State → Outcome) (w : Nat) (v : Word64) (s : State) : Outcome :=
  match s.portWrite s.regs.buf with
  | none => .next (s.park (.waitWrite (.putbits (BitVec.ofNat 7 w) v)))
  | some (.err, s') => raise .ioError (s'.setRegs s'.regs.emitFailed)
  | some (.ok, s') => loop (s'.setRegs s'.regs.emitted)

/-- The loop `while w >= CNT` and the placing of the rest. -/
def putbitsLoop : Nat → Nat → Word64 → State → Outcome
  | 0, _, _, _ => .fault .loopBound
  | fuel + 1, w, v, s =>
    let left := w - s.regs.cnt.toNat
    if s.regs.cnt.toNat ≤ w then
      putbitsEmit (putbitsLoop fuel left v) left v (s.setRegs (s.regs.fillByte left v.toNat))
    else answer 0 (s.setRegs (s.regs.fillRest w v.toNat))

/-- PUTBITS going on from `WAIT_WRITE`. -/
def putbitsResume (w : Nat) (v : Word64) (s : State) : Outcome :=
  putbitsEmit (putbitsLoop (loopFuel w) w v) w v s

def execPutbits (w : Nat) (s : State) : Outcome :=
  if !s.regs.active then raise .invalidArgument s
  else if s.regs.mode ≠ .write then raise .wrongMode s
  else if Config.maxField < w then raise .invalidArgument s
  else if s.regs.fault then raise .ioError s
  else putbitsLoop (loopFuel w) w (operandField w s.operandA) s

end Sys2Proof.Machine
end

