-- ==== Sys2Proof/Machine/ReadPath.lean ====
section
/-! DEFINITION. GETBIT and GETBITS (spec/42_read_path.md). -/

namespace Sys2Proof.Machine

open Sys2Proof

/-! ### GETBIT (R130) -/

/-- The fetch of a GETBIT that found nothing buffered. -/
def getbitFetch (s : State) : Outcome :=
  match s.fetch with
  | none => .next (s.park (.waitRead .getbit))
  | some (.byte b, s') =>
    let r := s'.regs.load b 7
    answer (r.bitAt 7) (s'.setRegs r)
  | some (.eof, s') => raise .endOfStream s'
  | some (.err, s') => raise .ioError (s'.setRegs s'.regs.fetchFailed)

def execGetbit (s : State) : Outcome :=
  if !s.regs.active then raise .invalidArgument s
  else if s.regs.mode ≠ .read then raise .wrongMode s
  else if s.regs.fault then raise .ioError s
  else if s.regs.cnt ≠ 0 then
    let r := s.regs.consume 1
    answer (r.bitAt r.cnt.toNat) (s.setRegs r)
  else getbitFetch s

/-! ### GETBITS (R131) -/

/-- The fetch inside the loop, with `w` bits still missing below the `res` gathered; `loop` goes on after a byte. At
end-of-file the command answers what it has (R133). -/
def getbitsFetch (loop : State → Outcome) (w : Nat) (res : Word64) (s : State) : Outcome :=
  match s.fetch with
  | none => .next (s.park (.waitRead (.getbits (BitVec.ofNat 7 w) res)))
  | some (.byte b, s') => loop (s'.setRegs (s'.regs.load b 8))
  | some (.eof, s') => answer res s'
  | some (.err, s') => raise .ioError (s'.setRegs s'.regs.fetchFailed)

/-- The loop `while w > CNT` and the taking of the last bits. -/
def getbitsLoop : Nat → Nat → Word64 → State → Outcome
  | 0, _, _, _ => .fault .loopBound
  | fuel + 1, w, res, s =>
    if s.regs.cnt.toNat < w then
      let left := w - s.regs.cnt.toNat
      let gathered := s.regs.gatherAll left res
      getbitsFetch (getbitsLoop fuel left gathered) left gathered (s.setRegs s.regs.drain)
    else answer (s.regs.gatherTop w res) (s.setRegs (s.regs.consume w))

/-- GETBITS going on from `WAIT_READ`. -/
def getbitsResume (w : Nat) (res : Word64) (s : State) : Outcome :=
  getbitsFetch (getbitsLoop (loopFuel w) w res) w res s

def execGetbits (w : Nat) (s : State) : Outcome :=
  if !s.regs.active then raise .invalidArgument s
  else if s.regs.mode ≠ .read then raise .wrongMode s
  else if Config.maxField < w then raise .invalidArgument s
  else if s.regs.fault then raise .ioError s
  else if s.regs.eofs ∧ s.regs.cnt = 0 then raise .endOfStream s
  else getbitsLoop (loopFuel w) w 0 s

end Sys2Proof.Machine
end

