-- ==== Sys2Proof/Machine/SeekTell.lean ====
section
/-! DEFINITION. SEEK and TELL (spec/43_seek_tell.md). Neither checks the mode (R157). -/

namespace Sys2Proof.Machine

open Sys2Proof

/-! ### SEEK (R150) -/

/-- `PortSeek` and what follows it; the discard has happened. -/
def seekPort (wh : Whence) (s : State) : Outcome :=
  match s.portSeek (operandOffset s.operandA) wh with
  | none => .next (s.park (.waitSeek wh))
  | some (.ok, s') => answer 0 (s'.setRegs s'.regs.clearEof)
  | some (.eof, s') => raise .endOfStream s'
  | some (.err, s') => raise .ioError s'

def execSeek (wh : Whence) (s : State) : Outcome :=
  if !s.regs.active then raise .invalidArgument s
  else if s.regs.fault then raise .ioError s
  else seekPort wh (s.setRegs s.regs.discard)

/-! ### TELL (R154) -/

/-- `PortTell` and what follows it. -/
def tellPort (s : State) : Outcome :=
  match s.portTell with
  | none => .next (s.park .waitTell)
  | some (.pos n, s') => answer n s'
  | some (.err, s') => raise .ioError s'

def execTell (s : State) : Outcome :=
  if !s.regs.active then raise .invalidArgument s
  else if s.regs.fault then raise .ioError s
  else tellPort s

end Sys2Proof.Machine
end

