-- ==== Sys2Proof/Machine/Dispatch.lean ====
section
/-! DEFINITION. The meaning of each instruction: one arm per constructor, one direct call each. -/

namespace Sys2Proof.Machine

open Sys2Proof

def exec (i : Instr) (s : State) : Host.Outcome State Fault Refusal :=
  match i with
  | .wssize => Sys2Proof.Machine.execWssize s
  | .openFile ws => Sys2Proof.Machine.execOpen ws s
  | .close => Sys2Proof.Machine.execClose s
  | .putbit => Sys2Proof.Machine.execPutbit s
  | .putbits w => Sys2Proof.Machine.execPutbits w s
  | .getbit => Sys2Proof.Machine.execGetbit s
  | .getbits w => Sys2Proof.Machine.execGetbits w s
  | .seek wh => Sys2Proof.Machine.execSeek wh s
  | .tell => Sys2Proof.Machine.execTell s

end Sys2Proof.Machine
end

