-- ==== Sys2Proof/Machine/Engine.lean ====
section
/-! DEFINITION. What happens around a command (R34, R70, R190): accepting one, running the latched one, going on from a
`WAIT` state, handing over the response, and reset. -/

namespace Sys2Proof.Machine

open Sys2Proof

/-- `IDLE -> EXEC`: the command is latched and is no longer offered (R34, R70). -/
def State.accept (c : Command) (rest : List Command) (s : State) : State :=
  { s with fsm := .exec, latched := some c, offered := rest }

/-- The command with its response, once there are both. -/
def State.exchange (s : State) : List Exchange :=
  match s.latched, s.response with
  | some c, some r => [⟨c, r⟩]
  | some _, none => []
  | none, _ => []

/-- `RESP -> IDLE`: the host takes the response (R34, R70). -/
def State.takeResponse (s : State) : State :=
  { s with fsm := .idle, latched := none, response := none, exchanges := s.exchanges ++ s.exchange }

/-- Reset (R190, R191, R192): the registers at their reset values, the FSM in `IDLE`, the latched command and an untaken
response dropped; no transaction is issued, so the ports stay as they are. The line goes back to rest. Assumption log 6. -/
def State.hardwareReset (s : State) : State :=
  { s with regs := Regs.reset, fsm := .idle, latched := none, response := none, resetLine := false }

/-- `EXEC`: decoding comes first (R172), and an illegal word is answered `InvalidArgument` (R79). -/
def runLatched (s : State) : Outcome :=
  match s.latched with
  | none => .fault .noCommandLatched
  | some c =>
    match decode c.word with
    | .illegal _ => raise .invalidArgument s
    | .legal i => exec i s

/-- A `WAIT` state: the command goes on if its transaction has an answer, and stays as it is if not (R34, R43). -/
def resumeWrite (k : WriteFor) (s : State) : Outcome :=
  match k with
  | .putbit => putbitEmit s
  | .putbits w v => putbitsResume w.toNat v s
  | .close => closeFlush s

def resumeRead (k : ReadFor) (s : State) : Outcome :=
  match k with
  | .getbit => getbitFetch s
  | .getbits w res => getbitsResume w.toNat res s

def resumeFree (k : FreeFor) (s : State) : Outcome :=
  match k with
  | .failedOpen base => openFree base s
  | .close => closeFree s

/-- The engine ready for a command (R70). With none offered nothing happens. -/
def idleStep (s : State) : Outcome :=
  match s.offered with
  | [] => .next s
  | c :: rest => runLatched (s.accept c rest)

/-- The response offered: it stays until the host takes it (R70, R199). -/
def respStep (s : State) : Outcome := .next (if s.hostReady then s.takeResponse else s)

/-- What the FSM does in its state (R34). -/
def fsmStep (s : State) : Outcome :=
  match s.fsm with
  | .idle => idleStep s
  | .exec => runLatched s
  | .waitAlloc dir => openAlloc dir s
  | .waitOpen dir owns base => openPort dir owns base s
  | .waitWrite k => resumeWrite k s
  | .waitRead k => resumeRead k s
  | .waitSeek wh => seekPort wh s
  | .waitTell => tellPort s
  | .waitClose => closePort s
  | .waitFree k => resumeFree k s
  | .resp => respStep s

/-- One step of the machine: reset has precedence over the FSM. -/
def advance (s : State) : Outcome := if s.resetLine then .next s.hardwareReset else fsmStep s

/-- A command with the given word and, beside it, the operands of the command offered first; zero and absent operands when
none is offered. -/
def commandWithWord (word : CmdWord) : List Command → Command
  | [] => { word := word, a := 0, b := 0, path := none, modeStr := none }
  | c :: _ => { c with word := word }

/-- The engine idle, with a command of the given word offered first. Assumption log 15. -/
def State.presentWord (word : CmdWord) (s : State) : State :=
  { s with fsm := .idle, resetLine := false, offered := commandWithWord word s.offered :: s.offered.drop 1 }

end Sys2Proof.Machine
end

