-- ==== Sys2Proof/Machine/Step.lean ====
section
/-! DEFINITION. One step of the machine, and how a word comes to stand where the next step reads its command. -/

namespace Sys2Proof.Machine

open Sys2Proof

/-- One step: a reset, a whole command, its continuation after a wait, or the taking of a response (R34). -/
def step (s : State) : Host.Outcome State Fault Refusal := advance s

/-- The state whose next step accepts and runs the command word `w` (R70). A number that is no 32-bit word is cut to its low
32 bits. -/
def State.withFetchWord (s : State) (nbits w : Nat) : State :=
  s.presentWord (BitVec.ofNat 32 (w % 2 ^ nbits))

end Sys2Proof.Machine
end

