-- ==== Sys2Proof/Safety.lean ====
section
/-! DEFINITION. The words claims are stated in: streams of bits (R52, R53), the laws between commands (R32), the invariant of
the machine, reachable states, and what a device does over several transactions. No meaning uses anything of this file. -/

namespace Sys2Proof.Machine

open Sys2Proof

/-! ### Bits, most significant first (R52, R53) -/

/-- The `w` low bits of `v`, bit `w-1` first. -/
def bitsOf : Nat → Nat → List Bool
  | 0, _ => []
  | w + 1, v => v.testBit w :: bitsOf w v

/-- The stream bits of bytes, in order. -/
def streamBits (bs : Bytes) : List Bool := bs.flatMap fun b => bitsOf 8 b.toNat

/-- `BUF[7:CNT]`: the bits put and not yet emitted in Write mode (R25). -/
def Regs.pendingBits (r : Regs) : List Bool := bitsOf (8 - r.cnt.toNat) (r.buf.toNat >>> r.cnt.toNat)

/-- `BUF[CNT-1:0]`: the bits fetched and not yet consumed in Read mode (R25). -/
def Regs.unconsumedBits (r : Regs) : List Bool := bitsOf r.cnt.toNat r.buf.toNat

/-- The last byte of a list, or the given one. -/
def lastByte (b : Byte) : Bytes → Byte
  | [] => b
  | c :: rest => lastByte c rest

/-! ### A state after a command -/

/-- The state in which a command has been answered: the registers, the byte device, the transactions the command made, the
status and the value are given, and everything else is as in `s`. An equation with it states a command's frame whole. -/
def State.after (s : State) (r : Regs) (d : Device) (new : List Transaction) (st : Status) (v : Word64) : State :=
  { s with regs := r, device := d, traffic := s.traffic ++ new, fsm := .resp, response := some ⟨st, v⟩ }

/-- A command turned away by a check: nothing but the response (R175). -/
def State.rejected (s : State) (st : Status) : State := s.after s.regs s.device [] st 0

/-! ### The laws between commands (R32) -/

/-- Law 1: `CNT <= 8`. -/
def Regs.countInRange (r : Regs) : Bool := decide (r.cnt.toNat ≤ 8)

/-- Law 2: on an unfaulted Write stream `1 <= CNT <= 8` and the unfilled bits of `BUF` are 0. -/
def Regs.unfilledBitsZero (r : Regs) : Bool :=
  !(r.active && r.mode == .write && !r.fault) || (decide (1 ≤ r.cnt.toNat) && r.buf.toNat % 2 ^ r.cnt.toNat == 0)

/-- Law 3: `EOFS = 1` implies `ACTIVE = 1`, `MODE = Read` and `CNT = 0`. -/
def Regs.eofOnlyWhenDrained (r : Regs) : Bool := !r.eofs || (r.active && r.mode == .read && r.cnt == 0)

/-- Law 4: a CLOSED engine holds its reset values. -/
def Regs.closedIsReset (r : Regs) : Bool := r.active || r == Regs.reset

/-- Law 5: `FAULT = 1` implies `ACTIVE = 1`. -/
def Regs.faultOnlyWhenActive (r : Regs) : Bool := !r.fault || r.active

/-- R32, whole. -/
def Regs.betweenCommands (r : Regs) : Bool :=
  r.countInRange && r.unfilledBitsZero && r.eofOnlyWhenDrained && r.closedIsReset && r.faultOnlyWhenActive

/-! ### The invariant -/

/-- An open, unfaulted stream of the given mode that has not met end-of-file, with `CNT <= 8`. -/
def Regs.streaming (r : Regs) (m : Mode) : Bool :=
  r.active && r.mode == m && !r.fault && !r.eofs && r.countInRange

/-- What the registers are while a `PortWrite` is unanswered. -/
def Regs.writeWaitOk (r : Regs) : WriteFor → Bool
  | .putbit => r.streaming .write && r.cnt == 0
  | .putbits w _ => r.streaming .write && decide (1 ≤ r.cnt.toNat) && decide (w.toNat ≤ 63)
  | .close => r.betweenCommands && r.active && r.flushPending

/-- What the registers are while a `PortRead` is unanswered. -/
def Regs.readWaitOk (r : Regs) : ReadFor → Bool
  | .getbit => r.streaming .read && r.cnt == 0
  | .getbits w _ => r.streaming .read && r.cnt == 0 && decide (1 ≤ w.toNat) && decide (w.toNat ≤ 64)

/-- What the registers are while a `Free` is unanswered. -/
def Regs.freeWaitOk (r : Regs) : FreeFor → Bool
  | .failedOpen _ => r == Regs.reset
  | .close => r.betweenCommands && r.active && r.owns

/-- What the registers are in each FSM state. -/
def Regs.fitsFsm (r : Regs) : Fsm → Bool
  | .idle => r.betweenCommands
  | .exec => r.betweenCommands
  | .resp => r.betweenCommands
  | .waitAlloc _ => r == Regs.reset
  | .waitOpen _ _ _ => r == Regs.reset
  | .waitWrite k => r.writeWaitOk k
  | .waitRead k => r.readWaitOk k
  | .waitSeek _ => r.betweenCommands && r.active && !r.fault
  | .waitTell => r.betweenCommands && r.active && !r.fault
  | .waitClose => r.betweenCommands && r.active
  | .waitFree k => r.freeWaitOk k

/-- A command is latched exactly while one is being run or answered, and a response is offered exactly in `RESP`
(R34, R70). -/
def State.handshakeOk (s : State) : Bool :=
  match s.fsm with
  | .idle => s.latched.isNone && s.response.isNone
  | .resp => s.latched.isSome && s.response.isSome
  | _ => s.latched.isSome && s.response.isNone

/-- An open stream has a file bound to the byte port, from `PortOpen` to `PortClose` (R31). -/
def State.bindingOk (s : State) : Bool :=
  match s.fsm with
  | .waitFree .close => s.file.isNone
  | _ => !s.regs.active || s.file.isSome

/-- A workspace that starts at `base` lies inside the 64-bit address space (R51, R93). -/
def State.workspaceFits (s : State) (base : Word64) : Bool := decide (base.toNat + s.cfg.workspaceSize ≤ 2 ^ 64)

/-- The workspace of an open stream, and the one an OPEN holds while it waits, lie inside the address space. -/
def State.workspaceOk (s : State) : Bool :=
  match s.fsm with
  | .waitOpen _ _ base => s.workspaceFits base
  | .waitFree (.failedOpen base) => s.workspaceFits base
  | _ => !s.regs.active || s.workspaceFits s.regs.wsbase

/-- The invariant every step keeps. -/
def State.inv (s : State) : Bool := s.regs.fitsFsm s.fsm && s.handshakeOk && s.bindingOk && s.workspaceOk

/-! ### Reachable states -/

/-- A state that power-on, steps and changes of the inputs lead to. The inputs are everything outside the engine (R8): the
commands offered, the host's readiness, the reset line, the byte device and the allocator. -/
inductive Reachable : State → Prop where
  | powerOn : Reachable State.reset
  | step {s t : State} : Reachable s → step s = .next t → Reachable t
  | input {s : State} (offered : List Command) (ready line : Bool) (d : Device) (m : Allocator) : Reachable s →
      Reachable { s with offered := offered, hostReady := ready, resetLine := line, device := d, allocator := m }

/-! ### A device over several transactions -/

/-- The device answers each of the next `n` writes `OK`, whatever the bytes. -/
def Device.acceptsWrites : Nat → Device → Prop
  | 0, _ => True
  | n + 1, d => ∀ b : Byte, ∃ d', d.write b = some (.ok, d') ∧ Device.acceptsWrites n d'

/-- The device answers each of the next `n` writes, whatever the bytes and whatever it answers. -/
def Device.answersWrites : Nat → Device → Prop
  | 0, _ => True
  | n + 1, d => ∀ b : Byte, ∃ r d', d.write b = some (r, d') ∧ Device.answersWrites n d'

/-- The device after it has taken the bytes, each answered `OK`; none if one is not. -/
def Device.takes : Bytes → Device → Option Device
  | [], d => some d
  | b :: bs, d =>
    match d.write b with
    | some (.ok, d') => d'.takes bs
    | _ => none

/-- The device after its next reads have been answered with exactly these bytes; none if they are not. -/
def Device.delivers : Bytes → Device → Option Device
  | [], d => some d
  | b :: bs, d =>
    match d.read with
    | some (.byte c, d') => if c = b then d'.delivers bs else none
    | _ => none

/-- The number of fetches a GETBITS of `w` bits needs when `n` bits are buffered (R56). -/
def fetchesNeeded (w n : Nat) : Nat := (w - n + 7) / 8

/-- The number of emits a PUTBITS of `w` bits makes when `n` places are free (R56). -/
def emitsMade (w n : Nat) : Nat := (8 - n + w) / 8

/-! ### Several commands in a row -/

/-- A command word with operand `A` and nothing else. -/
def plainCommand (i : Instr) (a : Word64) : Command :=
  { word := encode i, a := a, b := 0, path := none, modeStr := none }

/-- The instruction run with a latched command that carries it and the operand `A`. -/
def runWith (i : Instr) (a : Word64) (s : State) : Outcome := exec i { s with latched := some (plainCommand i a) }

/-- PUTBIT for each bit in turn. -/
def putbitSequence : List Bool → State → Outcome
  | [], s => .next s
  | b :: bs, s =>
    match runWith .putbit (if b then 1 else 0) s with
    | .next t => putbitSequence bs t
    | .fault f => .fault f
    | .refused r => .refused r

/-- PUTBITS for each pair of a width and a value in turn. -/
def putbitsSequence : List (Nat × Word64) → State → Outcome
  | [], s => .next s
  | (w, v) :: rest, s =>
    match runWith (.putbits w) v s with
    | .next t => putbitsSequence rest t
    | .fault f => .fault f
    | .refused r => .refused r

/-- The value of an Ok response. -/
def State.okValue (s : State) : Option Word64 :=
  match s.response with
  | some ⟨.ok, v⟩ => some v
  | _ => none

/-- GETBITS for each width in turn: the values answered and the state after; none as soon as one is not answered Ok. -/
def getbitsSequence : List Nat → State → Option (List Word64 × State)
  | [], s => some ([], s)
  | w :: ws, s =>
    match runWith (.getbits w) 0 s with
    | .next t =>
      match t.okValue with
      | none => none
      | some v => (getbitsSequence ws t).map fun p => (v :: p.1, p.2)
    | _ => none

/-- GETBIT `n` times: the bits answered and the state after; none as soon as one is not answered Ok. -/
def getbitSequence : Nat → State → Option (List Bool × State)
  | 0, s => some ([], s)
  | n + 1, s =>
    match runWith .getbit 0 s with
    | .next t =>
      match t.okValue with
      | none => none
      | some v => (getbitSequence n t).map fun p => (v.getLsbD 0 :: p.1, p.2)
    | _ => none

/-- OPEN of a path in a mode, the workspace left to the allocator. -/
def openCommand (path mode : Bytes) : Command :=
  { word := encode (.openFile false), a := 0, b := 0, path := some path, modeStr := some mode }

/-- The host's commands of the round trip (R138): write the fields to a file, close it, open it again and read them. -/
def roundTripProgram (path : Bytes) (fields : List (Nat × Word64)) : List Command :=
  openCommand path [0x77] :: fields.map (fun f => plainCommand (.putbits f.1) f.2) ++
    plainCommand .close 0 :: openCommand path [0x72] :: fields.map (fun f => plainCommand (.getbits f.1) 0) ++
      [plainCommand .close 0]

/-! ### More answers -/

/-- The answers of `q` followed by those of `p`. -/
def Script.append (q p : Script) : Script :=
  { opens := q.opens ++ p.opens, reads := q.reads ++ p.reads, writes := q.writes ++ p.writes,
    seeks := q.seeks ++ p.seeks, tells := q.tells ++ p.tells, closes := q.closes ++ p.closes }

/-- More answers for a scripted device; another device needs none. -/
def Device.feed (p : Script) : Device → Device
  | .scripted q => .scripted (q.append p)
  | .reference f => .reference f

/-- More answers on both ports. -/
def State.feed (p : Script) (allocs : List AllocAnswer) (frees : Nat) (s : State) : State :=
  { s with
    device := s.device.feed p
    allocator := { allocs := s.allocator.allocs ++ allocs, frees := s.allocator.frees + frees } }

/-! ### What a command may read, do and answer -/

/-- The two commands agree on every operand the instruction reads (R71). -/
def sameOperands (i : Instr) (c c' : Command) : Prop :=
  match i with
  | .wssize => True
  | .openFile ws => c.path = c'.path ∧ c.modeStr = c'.modeStr ∧ (ws = true → c.a = c'.a ∧ c.b = c'.b)
  | .close => True
  | .putbit => c.a = c'.a
  | .putbits _ => c.a = c'.a
  | .getbit => True
  | .getbits _ => True
  | .seek _ => c.a = c'.a
  | .tell => True

/-- The statuses an instruction can answer (R171). -/
def allowedStatuses : Instr → List Status
  | .wssize => [.ok]
  | .openFile true => [.ok, .invalidArgument, .insufficientWorkspace, .fileOpenFailed]
  | .openFile false => [.ok, .invalidArgument, .allocationFailed, .fileOpenFailed]
  | .close => [.ok]
  | .putbit => [.ok, .invalidArgument, .wrongMode, .ioError]
  | .putbits _ => [.ok, .invalidArgument, .wrongMode, .ioError]
  | .getbit => [.ok, .invalidArgument, .wrongMode, .endOfStream, .ioError]
  | .getbits _ => [.ok, .invalidArgument, .wrongMode, .endOfStream, .ioError]
  | .seek _ => [.ok, .invalidArgument, .endOfStream, .ioError]
  | .tell => [.ok, .invalidArgument, .ioError]

/-! ### Which transactions, in which order and how many -/

/-- The kinds of transaction (R42, R51). -/
inductive TransactionKind where
  | alloc
  | free
  | portOpen
  | portRead
  | portWrite
  | portSeek
  | portTell
  | portClose
  deriving DecidableEq, Repr

def Transaction.kind : Transaction → TransactionKind
  | .alloc _ _ => .alloc
  | .free _ => .free
  | .portOpen _ _ _ _ => .portOpen
  | .portRead _ => .portRead
  | .portWrite _ _ => .portWrite
  | .portSeek _ _ _ => .portSeek
  | .portTell _ => .portTell
  | .portClose _ => .portClose

/-- The kinds of the transactions an instruction makes at most when it starts with `CNT = cnt`, in the order it makes them:
those of PUTBITS and GETBITS are counted by R56, the others are those of the pseudocode (R92, R98, R110, R130, R150, R154). -/
def kindsOf (cnt : Nat) : Instr → List TransactionKind
  | .wssize => []
  | .openFile true => [.portOpen]
  | .openFile false => [.alloc, .portOpen, .free]
  | .close => [.portWrite, .portClose, .free]
  | .putbit => [.portWrite]
  | .putbits w => List.replicate (emitsMade w cnt) .portWrite
  | .getbit => [.portRead]
  | .getbits w => List.replicate (fetchesNeeded w cnt) .portRead
  | .seek _ => [.portSeek]
  | .tell => [.portTell]

/-- The most transactions an instruction makes in all (R56, R92, R98, R150, R154). -/
def mostTransactions : Instr → Nat
  | .wssize => 0
  | .openFile true => 1
  | .openFile false => 3
  | .close => 3
  | .putbit => 1
  | .putbits _ => 8
  | .getbit => 1
  | .getbits _ => 8
  | .seek _ => 1
  | .tell => 1

/-- The kinds of the transactions a command makes at most after a `PortWrite` it waited for (R98, R110, R111): PUTBITS one for
each whole byte of the bits still to put. -/
def kindsAfterWrite : WriteFor → List TransactionKind
  | .putbit => []
  | .putbits w _ => List.replicate (emitsMade w.toNat 8) .portWrite
  | .close => [.portClose, .free]

/-- The same after a `PortRead` (R130, R131): GETBITS one for each byte still needed once the one fetched is used. -/
def kindsAfterRead : ReadFor → List TransactionKind
  | .getbit => []
  | .getbits w _ => List.replicate (fetchesNeeded w.toNat 8) .portRead

/-- The kinds of the transactions a command makes at most after the one its `WAIT` state waits for, in the order it makes
them: what its pseudocode has still to come (R43, R92, R98). -/
def kindsAfterWait : Fsm → List TransactionKind
  | .idle => []
  | .exec => []
  | .waitAlloc _ => [.portOpen, .free]
  | .waitOpen _ _ _ => [.free]
  | .waitWrite k => kindsAfterWrite k
  | .waitRead k => kindsAfterRead k
  | .waitSeek _ => []
  | .waitTell => []
  | .waitClose => [.free]
  | .waitFree _ => []
  | .resp => []

end Sys2Proof.Machine
end

