-- ==== Sys2Proof/Certificates/Slice0/Obligations.lean ====
section
/-! DEFINITION. The statements for the provers. Each is a rule of the spec, or an inference from rules, about the machine. -/

open Sys2Proof
open Sys2Proof.Machine

/-! ### Encoding -/

/-- Decoding the word of a well-formed instruction gives the instruction back, with every operand at every value its field
admits (R72, R73). -/
def Obligations.DecodeOfEncodeIsTheInstruction : Prop :=
  ∀ i : Instr, i.wellFormed = true → decode (encode i) = .legal i

/-- A legal word is the encoding of the instruction it decodes to, which is well-formed: no bit of a legal word is dropped
(R72, R77). -/
def Obligations.LegalWordIsTheEncodingOfItsInstruction : Prop :=
  ∀ (c : CmdWord) (i : Instr), decode c = .legal i → encode i = c ∧ i.wellFormed = true

/-- R78: a word is legal exactly when it matches one row of the opcode table and is no SEEK with `WH = 3`; the row is that of
the instruction decoded. -/
def Obligations.LegalExactlyWhenOneRowMatches : Prop :=
  ∀ c : CmdWord,
    ((∃ i, decode c = .legal i) ↔
      (opcodeRows.filter fun r => r.matchesWord c).length = 1 ∧
        ¬(rowSeek.matchesWord c = true ∧ whenceField c = 3)) ∧
    ∀ i, decode c = .legal i → (opcodeRows.filter fun r => r.matchesWord c) = [i.row]

/-- R87: words of the spec's own list decode to the commands it lists them for. -/
def Obligations.SpecCommandWordsDecode : Prop :=
  decode 0x00000000 = .legal .wssize ∧ decode 0x00000001 = .legal (.openFile false) ∧
  decode 0x00004001 = .legal (.openFile true) ∧ decode 0x00000002 = .legal .close ∧
  decode 0x00000003 = .legal .putbit ∧ decode 0x00000104 = .legal (.putbits 16) ∧
  decode 0x00000404 = .legal (.putbits 64) ∧ decode 0x00000414 = .legal (.putbits 65) ∧
  decode 0x00000005 = .legal .getbit ∧ decode 0x000000C6 = .legal (.getbits 12) ∧
  decode 0x00000007 = .legal (.seek .start) ∧ decode 0x00001007 = .legal (.seek .current) ∧
  decode 0x00002007 = .legal (.seek .fromEnd) ∧ decode 0x00000008 = .legal .tell

/-- R170, R83: the numbers of the statuses; two statuses never share one, and 8..15 are never used. -/
def Obligations.StatusCodesAreTheSpecs : Prop :=
  Status.ok.code = 0 ∧ Status.invalidArgument.code = 1 ∧ Status.insufficientWorkspace.code = 2 ∧
  Status.allocationFailed.code = 3 ∧ Status.fileOpenFailed.code = 4 ∧ Status.wrongMode.code = 5 ∧
  Status.endOfStream.code = 6 ∧ Status.ioError.code = 7 ∧ ∀ x : Status, x.code.toNat < 8

/-! ### The engine around a command -/

/-- An idle engine accepts the command offered first, and the step runs the instruction its word decodes to: the command is
latched, it is no longer offered, and nothing else changes before the instruction (R34, R70, R172). -/
def Obligations.StepRunsTheDecodedCommand : Prop :=
  ∀ (s : State) (c : Command) (rest : List Command) (i : Instr),
    s.resetLine = false → s.fsm = .idle → s.offered = c :: rest → decode c.word = .legal i →
      step s = exec i { s with fsm := .exec, latched := some c, offered := rest }

/-- R79: an illegal word is answered `InvalidArgument` with value 0, whatever state the stream is in; no register changes and
no transaction is issued. -/
def Obligations.IllegalWordAnswersInvalidArgument : Prop :=
  ∀ (s : State) (c : Command) (rest : List Command) (e : DecodeError),
    s.resetLine = false → s.fsm = .idle → s.offered = c :: rest → decode c.word = .illegal e →
      step s = .next { s with fsm := .resp, latched := some c, offered := rest, response := some ⟨.invalidArgument, 0⟩ }

/-- R70: outside `IDLE` no command is accepted: what is offered stays offered and no other command is latched. -/
def Obligations.CommandsWaitUntilTheEngineIsIdle : Prop :=
  ∀ s t : State, s.fsm ≠ .idle → step s = .next t →
    t.offered = s.offered ∧ (t.latched = s.latched ∨ t.latched = none)

/-- R34, R70: the response stays offered until the host takes it; then the exchange is complete and the engine is idle. That
the taking is a step of its own, led by an input, is the model's form (assumption log 5). -/
def Obligations.ResponseIsTakenOnceAndFreesTheEngine : Prop :=
  ∀ (s : State) (c : Command) (r : Response),
    s.resetLine = false → s.fsm = .resp → s.latched = some c → s.response = some r →
      (s.hostReady = true →
        step s = .next { s with fsm := .idle, latched := none, response := none, exchanges := s.exchanges ++ [⟨c, r⟩] }) ∧
      (s.hostReady = false → step s = .next s)

/-- R190, R192: a reset, in any FSM state, puts every register at its reset value and the FSM in `IDLE`, drops the latched
command and an untaken response, issues no transaction and leaves the file bound. Three clauses are the model's choice: the
line is served by a step, before the FSM (assumption log 6); the two observed sequences are kept (assumption log 7); the
device and the allocator stay as they are also with a transaction in flight, whose effect R191 leaves to them (assumption
log 17). -/
def Obligations.ResetDropsTheCommandAndIssuesNothing : Prop :=
  ∀ s : State, s.resetLine = true → ∃ t, step s = .next t ∧
    t.regs.active = false ∧ t.regs.mode = .read ∧ t.regs.buf = 0 ∧ t.regs.cnt = 0 ∧ t.regs.owns = false ∧
    t.regs.eofs = false ∧ t.regs.fault = false ∧ t.regs.wsbase = 0 ∧
    t.fsm = .idle ∧ t.latched = none ∧ t.response = none ∧ t.exchanges = s.exchanges ∧
    t.traffic = s.traffic ∧ t.file = s.file ∧ t.device = s.device ∧ t.allocator = s.allocator ∧ t.offered = s.offered

/-- R38: the values after power-on, which a reset of the running machine sets too. -/
def Obligations.PowerOnValues : Prop :=
  State.reset.regs.active = false ∧ State.reset.regs.mode = .read ∧ State.reset.regs.buf = 0 ∧
  State.reset.regs.cnt = 0 ∧ State.reset.regs.owns = false ∧ State.reset.regs.eofs = false ∧
  State.reset.regs.fault = false ∧ State.reset.regs.wsbase = 0 ∧ State.reset.fsm = .idle ∧ State.reset.latched = none ∧
  ∀ s : State, s.resetLine = true → ∃ t, step s = .next t ∧
    t.regs = State.reset.regs ∧ t.fsm = State.reset.fsm ∧ t.latched = State.reset.latched

/-- R43: while its transaction is unanswered the engine stays in its `WAIT` state, with nothing changed and no response. That
the step then answers the state itself is the model's form (assumption log 3). -/
def Obligations.UnansweredTransactionHangsTheEngine : Prop :=
  ∀ (s : State) (q : Request), s.inv = true → s.resetLine = false → s.outstanding = some q → s.answers q = false →
    step s = .next s

/-- R43, R60: a transaction in flight is completed once, before any other, and is not issued again: after it the command
makes at most the transactions its pseudocode has still to come, in that order, and those have the kind of the completed one
only in the loops of PUTBITS and GETBITS, one for each byte still to move. -/
def Obligations.AnsweredTransactionComesFirst : Prop :=
  ∀ (s t : State) (q : Request), s.inv = true → s.resetLine = false → s.outstanding = some q → s.answers q = true →
    step s = .next t →
      ∃ x more, t.traffic = s.traffic ++ x :: more ∧ x.request = q ∧
        (more.map Transaction.kind).Sublist (kindsAfterWait s.fsm)

/-- R34: a command may be run as one atomic step. If a command stops at an unanswered transaction and the answers then come,
going on gives the state that running it with those answers at hand gives. -/
def Obligations.WaitingDoesNotChangeACommand : Prop :=
  ∀ (i : Instr) (s t : State) (p : Script) (allocs : List AllocAnswer) (frees : Nat),
    s.resetLine = false → exec i s = .next t → t.fsm ≠ .resp →
      step (t.feed p allocs frees) = exec i (s.feed p allocs frees)

/-! ### The laws between commands and the invariant -/

/-- The invariant holds after power-on. -/
def Obligations.InvariantHoldsAtPowerOn : Prop := State.reset.inv = true

/-- Every step keeps the invariant: the laws of R32 between commands, what they become at each `WAIT` state, the handshake of
R70, the file binding of R31, and the workspace inside the address space (R51, R93). -/
def Obligations.EveryStepKeepsTheInvariant : Prop :=
  ∀ s t : State, s.inv = true → step s = .next t → t.inv = true

/-- R32: in every state that power-on, steps and any inputs lead to, the five laws hold between commands. -/
def Obligations.ContextLawsHoldBetweenCommands : Prop :=
  ∀ s : State, Reachable s → s.fsm = .idle ∨ s.fsm = .resp →
    s.regs.cnt.toNat ≤ 8 ∧
    (s.regs.active = true → s.regs.mode = .write → s.regs.fault = false →
      1 ≤ s.regs.cnt.toNat ∧ s.regs.cnt.toNat ≤ 8 ∧ s.regs.buf.toNat % 2 ^ s.regs.cnt.toNat = 0) ∧
    (s.regs.eofs = true → s.regs.active = true ∧ s.regs.mode = .read ∧ s.regs.cnt = 0) ∧
    (s.regs.active = false →
      s.regs.mode = .read ∧ s.regs.buf = 0 ∧ s.regs.cnt = 0 ∧ s.regs.owns = false ∧ s.regs.eofs = false ∧
        s.regs.fault = false ∧ s.regs.wsbase = 0) ∧
    (s.regs.fault = true → s.regs.active = true)

/-- From the invariant a step always answers a next state: no fault and no refusal can be reached (R173: errors are
responses). -/
def Obligations.NoFaultFromTheInvariant : Prop :=
  ∀ s : State, s.inv = true → ∃ t, step s = .next t

/-- Every instruction answers a next state in every state but one: PUTBIT on an open, unfaulted Write stream with `CNT = 0`,
which R26 says cannot occur, stops by name (assumption log 9). -/
def Obligations.EveryInstructionAnswers : Prop :=
  ∀ (i : Instr) (s : State),
    (∃ t, exec i s = .next t) ∨
      (i = .putbit ∧ s.regs.active = true ∧ s.regs.mode = .write ∧ s.regs.fault = false ∧ s.regs.cnt = 0 ∧
        exec i s = .fault .countUnderflow)

/-! ### Rules over all commands -/

/-- R22: every register is written only by the commands the table lists for it, but for `MODE`, which CLOSE writes beside
OPEN: the table and R24 list OPEN alone, and R98 has CLOSE put `MODE` at its reset value (assumption log 20). -/
def Obligations.RegistersAreWrittenOnlyByTheirCommands : Prop :=
  ∀ (i : Instr) (s t : State), exec i s = .next t →
    ((∀ ws, i ≠ .openFile ws) → i ≠ .close →
      t.regs.active = s.regs.active ∧ t.regs.mode = s.regs.mode ∧ t.regs.owns = s.regs.owns ∧
        t.regs.wsbase = s.regs.wsbase) ∧
    (i = .wssize ∨ i = .tell → t.regs = s.regs) ∧
    (i = .putbit ∨ (∃ w, i = .putbits w) → t.regs.eofs = s.regs.eofs) ∧
    ((∃ wh, i = .seek wh) → t.regs.fault = s.regs.fault)

/-- An instruction leaves alone the configuration, the latched command, what the host offers and has been given, and the reset
line; only OPEN and CLOSE touch the file binding (R31, R70). -/
def Obligations.CommandsLeaveTheHostSideAlone : Prop :=
  ∀ (i : Instr) (s t : State), exec i s = .next t →
    t.cfg = s.cfg ∧ t.latched = s.latched ∧ t.offered = s.offered ∧ t.exchanges = s.exchanges ∧
    t.hostReady = s.hostReady ∧ t.resetLine = s.resetLine ∧
    ((∀ ws, i ≠ .openFile ws) → i ≠ .close → t.file = s.file ∧ t.allocator = s.allocator)

/-- R56, R92, R98, R150, R154: which transactions of R42 and R51 a command makes at most, each kind no more often than the rules
say, in the order of the pseudocode (R43), and how many in all, on a context that obeys the laws of R32. -/
def Obligations.TransactionsOfEachCommandAreBounded : Prop :=
  ∀ (i : Instr) (s t : State), s.regs.betweenCommands = true → exec i s = .next t →
    ∃ new, t.traffic = s.traffic ++ new ∧ (new.map Transaction.kind).Sublist (kindsOf s.regs.cnt.toNat i) ∧
      new.length ≤ mostTransactions i

/-- R171: the statuses each command can answer. SEEK and TELL never answer `WrongMode` (R157), WSSIZE and CLOSE nothing but
`Ok`. -/
def Obligations.StatusesOfEachCommand : Prop :=
  ∀ (i : Instr) (s t : State) (r : Response),
    exec i s = .next t → t.fsm = .resp → t.response = some r → r.status ∈ allowedStatuses i

/-- R176: every error response has value 0, whether a command gives it at once, after a wait, or for an illegal word. -/
def Obligations.EveryErrorHasValueZero : Prop :=
  ∀ (s t : State) (r : Response),
    step s = .next t → s.response = none → t.response = some r → r.status ≠ .ok → r.value = 0

/-- R71: an operand a command does not read has no effect on it. -/
def Obligations.UnreadOperandsAreIgnored : Prop :=
  ∀ (i : Instr) (s t : State) (c c' : Command), sameOperands i c c' →
    exec i { s with latched := some c } = .next t →
      exec i { s with latched := some c' } = .next { t with latched := some c' }

/-- R24: no step changes the mode of a stream that is open before and after it. -/
def Obligations.ModeIsFixedWhileOpen : Prop :=
  ∀ s t : State, s.inv = true → step s = .next t → s.regs.active = true → t.regs.active = true →
    t.regs.mode = s.regs.mode

/-! ### Checks -/

/-- R23, R172: on a CLOSED engine every command that needs a stream is answered `InvalidArgument` and does nothing. -/
def Obligations.ClosedEngineRejectsStreamCommands : Prop :=
  ∀ (s : State) (w : Nat) (wh : Whence), s.regs.active = false →
    exec .putbit s = .next (s.rejected .invalidArgument) ∧ exec (.putbits w) s = .next (s.rejected .invalidArgument) ∧
    exec .getbit s = .next (s.rejected .invalidArgument) ∧ exec (.getbits w) s = .next (s.rejected .invalidArgument) ∧
    exec (.seek wh) s = .next (s.rejected .invalidArgument) ∧ exec .tell s = .next (s.rejected .invalidArgument)

/-- R116, R137, R172: a transfer in the wrong direction is answered `WrongMode`, whatever the width and in the fault state
too, and does nothing. -/
def Obligations.WrongModeComesBeforeWidthAndFault : Prop :=
  ∀ (s : State) (w : Nat), s.regs.active = true →
    (s.regs.mode = .read →
      exec .putbit s = .next (s.rejected .wrongMode) ∧ exec (.putbits w) s = .next (s.rejected .wrongMode)) ∧
    (s.regs.mode = .write →
      exec .getbit s = .next (s.rejected .wrongMode) ∧ exec (.getbits w) s = .next (s.rejected .wrongMode))

/-- R111, R131, R172: in the right mode a width above 64 is answered `InvalidArgument`, in the fault state too, and does
nothing. -/
def Obligations.OversizedFieldIsRejected : Prop :=
  ∀ (s : State) (w : Nat), s.regs.active = true → 64 < w →
    (s.regs.mode = .write → exec (.putbits w) s = .next (s.rejected .invalidArgument)) ∧
    (s.regs.mode = .read → exec (.getbits w) s = .next (s.rejected .invalidArgument))

/-- R174: in the fault state the commands that need the stream are answered `IOError` after their own earlier checks, OPEN is
answered `InvalidArgument`, WSSIZE answers as always, and none of them does anything. CLOSE is in
`CloseFlushesReleasesAndResets`. -/
def Obligations.FaultStateRefusesEverythingButClose : Prop :=
  ∀ (s : State) (w : Nat) (wh : Whence) (ws : Bool), s.regs.active = true → s.regs.fault = true →
    (s.regs.mode = .write → exec .putbit s = .next (s.rejected .ioError)) ∧
    (s.regs.mode = .write → w ≤ 64 → exec (.putbits w) s = .next (s.rejected .ioError)) ∧
    (s.regs.mode = .read → exec .getbit s = .next (s.rejected .ioError)) ∧
    (s.regs.mode = .read → w ≤ 64 → exec (.getbits w) s = .next (s.rejected .ioError)) ∧
    exec (.seek wh) s = .next (s.rejected .ioError) ∧ exec .tell s = .next (s.rejected .ioError) ∧
    exec (.openFile ws) s = .next (s.rejected .invalidArgument) ∧
    exec .wssize s = .next (s.after s.regs s.device [] .ok (BitVec.ofNat 64 s.cfg.workspaceSize))

/-! ### WSSIZE, OPEN, CLOSE -/

/-- R90, R91: the word 0 is WSSIZE, which answers `ENTITY_SIZE + 16` in every state, as a number that fits the response, and
changes nothing. -/
def Obligations.WssizeAnswersTheWorkspaceSize : Prop :=
  decode 0x00000000 = .legal .wssize ∧
  ∀ s : State, ∃ v : Word64, v.toNat = s.cfg.entitySize.val + 16 ∧
    exec .wssize s = .next (s.after s.regs s.device [] .ok v)

/-- R94, steps 1 to 5: OPEN's checks before its first transaction, in the rule's order; none of them changes anything. -/
def Obligations.OpenChecksInOrder : Prop :=
  ∀ (s : State) (ws : Bool),
    (s.regs.active = true → exec (.openFile ws) s = .next (s.rejected .invalidArgument)) ∧
    (s.regs.active = false → s.operandPath = none ∨ s.operandMode = none →
      exec (.openFile ws) s = .next (s.rejected .invalidArgument)) ∧
    ∀ path mode, s.regs.active = false → s.operandPath = some path → s.operandMode = some mode →
      (mode.head? ≠ some 0x72 → mode.head? ≠ some 0x77 →
        exec (.openFile ws) s = .next (s.rejected .invalidArgument)) ∧
      (mode.head? = some 0x72 ∨ mode.head? = some 0x77 → ws = true →
        (s.operandB.toNat < s.cfg.workspaceSize →
          exec (.openFile ws) s = .next (s.rejected .insufficientWorkspace)) ∧
        (s.cfg.workspaceSize ≤ s.operandB.toNat → 2 ^ 64 < s.operandA.toNat + s.operandB.toNat →
          exec (.openFile ws) s = .next (s.rejected .invalidArgument)))

/-- R92, R95, R96: OPEN with a supplied workspace. Its one transaction is `PortOpen` with the direction of the first mode
character and the rest of the mode string; on `OK` the context is initialised, the byte port is bound, and the answer is the
handle of the supplied start. -/
def Obligations.OpenWithSuppliedWorkspaceSucceeds : Prop :=
  ∀ (s : State) (path rest : Bytes) (ch : Byte) (dir : Mode) (d : Device),
    s.regs.active = false → s.operandPath = some path → s.operandMode = some (ch :: rest) →
    (ch = 0x72 ∧ dir = .read ∨ ch = 0x77 ∧ dir = .write) →
    s.cfg.workspaceSize ≤ s.operandB.toNat → s.operandA.toNat + s.operandB.toNat ≤ 2 ^ 64 →
    s.device.openFile path dir = some (.ok, d) →
      exec (.openFile true) s = .next
        { s.after
            { active := true, mode := dir, buf := 0, cnt := if dir = .read then 0 else 8, owns := false, eofs := false,
              fault := false, wsbase := s.operandA }
            d [.portOpen path dir rest .ok] .ok (placementHandle s.operandA) with
          file := some ⟨path, dir, rest⟩ }

/-- R92, R95: OPEN without a workspace. It asks the allocator for `WORKSPACE_SIZE` bytes, opens the file, and answers the
handle of the address it was given; the workspace is owned. -/
def Obligations.OpenWithAllocatedWorkspaceSucceeds : Prop :=
  ∀ (s : State) (path rest : Bytes) (ch : Byte) (dir : Mode) (a : Word64) (m : Allocator) (d : Device),
    s.regs.active = false → s.operandPath = some path → s.operandMode = some (ch :: rest) →
    (ch = 0x72 ∧ dir = .read ∨ ch = 0x77 ∧ dir = .write) →
    s.allocator.alloc s.cfg.workspaceSize = some (.addr a, m) → s.device.openFile path dir = some (.ok, d) →
      exec (.openFile false) s = .next
        { s.after
            { active := true, mode := dir, buf := 0, cnt := if dir = .read then 0 else 8, owns := true, eofs := false,
              fault := false, wsbase := a }
            d [.alloc s.cfg.workspaceSize (.addr a), .portOpen path dir rest .ok] .ok (placementHandle a) with
          file := some ⟨path, dir, rest⟩, allocator := m }

/-- R94 steps 6 and 7, R97: an OPEN that fails at the allocator or at the file changes no register; what it allocated it
frees before it answers, and a supplied workspace it never frees. -/
def Obligations.FailedOpenFreesWhatItAllocated : Prop :=
  ∀ (s : State) (path rest : Bytes) (ch : Byte) (dir : Mode),
    s.regs.active = false → s.operandPath = some path → s.operandMode = some (ch :: rest) →
    (ch = 0x72 ∧ dir = .read ∨ ch = 0x77 ∧ dir = .write) →
      (∀ m, s.allocator.alloc s.cfg.workspaceSize = some (.fail, m) →
        exec (.openFile false) s = .next
          { s.after s.regs s.device [.alloc s.cfg.workspaceSize .fail] .allocationFailed 0 with allocator := m }) ∧
      (∀ a m m' d, s.allocator.alloc s.cfg.workspaceSize = some (.addr a, m) →
        s.device.openFile path dir = some (.err, d) →
        m.free = some m' →
        exec (.openFile false) s = .next
          { s.after s.regs d
              [.alloc s.cfg.workspaceSize (.addr a), .portOpen path dir rest .err, .free a] .fileOpenFailed 0 with
            file := none, allocator := m' }) ∧
      (∀ d, s.cfg.workspaceSize ≤ s.operandB.toNat → s.operandA.toNat + s.operandB.toNat ≤ 2 ^ 64 →
        s.device.openFile path dir = some (.err, d) →
        exec (.openFile true) s = .next
          { s.after s.regs d [.portOpen path dir rest .err] .fileOpenFailed 0 with file := none })

/-- R91, R93: the handle is the first multiple of 16 at or above the start, and the entity placed there lies inside a
workspace that lies inside the address space. -/
def Obligations.HandleIsTheFirstAlignedPlace : Prop :=
  ∀ (cfg : Config) (base : Word64), base.toNat + cfg.workspaceSize ≤ 2 ^ 64 →
    16 ∣ (placementHandle base).toNat ∧ base.toNat ≤ (placementHandle base).toNat ∧
    (∀ n, 16 ∣ n → base.toNat ≤ n → (placementHandle base).toNat ≤ n) ∧
    (placementHandle base).toNat + cfg.entitySize.val < base.toNat + cfg.workspaceSize

/-- R51, R93: whatever the allocator and the host give, an OPEN that answers Ok answers a handle such that the entity placed
there, and the workspace around it, lie inside the 64-bit address space. -/
def Obligations.OpenedEntityLiesInsideTheAddressSpace : Prop :=
  ∀ (s t : State) (ws : Bool) (v : Word64), exec (.openFile ws) s = .next t → t.fsm = .resp → t.response = some ⟨.ok, v⟩ →
    16 ∣ v.toNat ∧ t.regs.wsbase.toNat ≤ v.toNat ∧ v.toNat + t.cfg.entitySize.val ≤ 2 ^ 64 ∧
      t.regs.wsbase.toNat + t.cfg.workspaceSize ≤ 2 ^ 64

/-- R101: CLOSE on a CLOSED engine answers Ok with value 0, changes nothing and issues nothing. -/
def Obligations.CloseOfAClosedEngineIsANoOp : Prop :=
  ∀ s : State, s.regs.active = false → exec .close s = .next (s.after s.regs s.device [] .ok 0)

/-- R98, R100: CLOSE of an open stream. It flushes `BUF` when it is a Write stream without a fault and with `CNT != 8`, closes
the file, frees an owned workspace, in this order; it ignores what the device answers, puts every register at its reset value
and answers Ok. -/
def Obligations.CloseFlushesReleasesAndResets : Prop :=
  ∀ (s : State) (d₁ d₂ : Device) (m : Allocator) (r₁ r₂ : IoAnswer) (flush : Bool),
    s.regs.active = true →
    (flush = true ↔ s.regs.mode = .write ∧ s.regs.fault = false ∧ s.regs.cnt ≠ 8) →
    (if flush then s.device.write s.regs.buf = some (r₁, d₁) else d₁ = s.device) →
    d₁.close = some (r₂, d₂) →
    (if s.regs.owns then s.allocator.free = some m else m = s.allocator) →
      exec .close s = .next
        { s.after
            { active := false, mode := .read, buf := 0, cnt := 0, owns := false, eofs := false, fault := false, wsbase := 0 }
            d₂
            ((if flush then [.portWrite s.regs.buf r₁] else []) ++ [.portClose r₂] ++
              (if s.regs.owns then [.free s.regs.wsbase] else [])) .ok 0 with
          file := none, allocator := m }

/-- R99: the byte CLOSE flushes is the one a PUTBITS of `CNT` zero bits emits. With `CNT` in 1..7 CLOSE first writes `BUF` as
it stands, whatever the answer, and makes no other write; that PUTBITS makes exactly the same write and leaves nothing
pending; and the byte is the pending bits followed by `CNT` zeros when the unfilled bits are 0 (R32). -/
def Obligations.FlushIsAPutbitsOfZeroBits : Prop :=
  ∀ s : State, s.regs.active = true → s.regs.mode = .write → s.regs.fault = false →
    1 ≤ s.regs.cnt.toNat → s.regs.cnt.toNat ≤ 7 →
      (∀ r d, s.device.write s.regs.buf = some (r, d) →
        ∃ t more, exec .close s = .next t ∧ t.traffic = s.traffic ++ .portWrite s.regs.buf r :: more ∧
          ∀ x ∈ more, x.kind ≠ .portWrite) ∧
      (∀ d, s.operandA = 0 → s.device.write s.regs.buf = some (.ok, d) →
        exec (.putbits s.regs.cnt.toNat) s = .next
          (s.after { s.regs with buf := 0, cnt := 8 } d [.portWrite s.regs.buf .ok] .ok 0)) ∧
      (s.regs.buf.toNat % 2 ^ s.regs.cnt.toNat = 0 →
        bitsOf 8 s.regs.buf.toNat = s.regs.pendingBits ++ List.replicate s.regs.cnt.toNat false)

/-! ### PUTBIT, PUTBITS -/

/-- R110: PUTBIT puts 1 for a nonzero `A` and 0 for `A = 0` at the highest unfilled place; a byte not yet full is not
emitted. -/
def Obligations.PutbitPlacesTheBit : Prop :=
  ∀ s : State, s.regs.active = true → s.regs.mode = .write → s.regs.fault = false →
    2 ≤ s.regs.cnt.toNat → s.regs.cnt.toNat ≤ 8 →
      exec .putbit s = .next
        (s.after
          { s.regs with
            cnt := s.regs.cnt - 1
            buf := s.regs.buf ||| ((if s.operandA = 0 then 0 else 1) <<< (s.regs.cnt.toNat - 1)) }
          s.device [] .ok 0)

/-- R110, R115: the bit that completes a byte emits it. On `OK` the accumulator is empty again; on `ERR` the command answers
`IOError`, the fault state is entered, `CNT` is 0 and `BUF` keeps the byte that failed. -/
def Obligations.PutbitEmitsACompletedByte : Prop :=
  ∀ (s : State) (b : Byte) (d : Device), s.regs.active = true → s.regs.mode = .write → s.regs.fault = false →
    s.regs.cnt = 1 → b = s.regs.buf ||| (if s.operandA = 0 then 0 else 1) →
      (s.device.write b = some (.ok, d) →
        exec .putbit s = .next
          (s.after { s.regs with buf := 0, cnt := 8 } d [.portWrite b .ok] .ok 0)) ∧
      (s.device.write b = some (.err, d) →
        exec .putbit s = .next
          (s.after { s.regs with buf := b, cnt := 0, fault := true } d [.portWrite b .err] .ioError 0))

/-- R111, R53, R114: PUTBITS completes when the device takes its bytes. It appends the low `W` bits of `A`, most significant
first, to the stream: the bits that were pending and the field are the bits of the bytes emitted followed by the bits now
pending, as many bytes are emitted as R56 counts, and no other register or part of the state changes. -/
def Obligations.PutbitsAppendsTheFieldToTheStream : Prop :=
  ∀ (s : State) (w : Nat), s.regs.active = true → s.regs.mode = .write → s.regs.fault = false →
    1 ≤ s.regs.cnt.toNat → s.regs.cnt.toNat ≤ 8 → s.regs.buf.toNat % 2 ^ s.regs.cnt.toNat = 0 → w ≤ 64 →
    s.device.acceptsWrites (emitsMade w s.regs.cnt.toNat) →
      ∃ (bs : Bytes) (d : Device) (buf : BitVec 8) (cnt : BitVec 4),
        exec (.putbits w) s = .next
          (s.after { s.regs with buf := buf, cnt := cnt } d (bs.map fun b => .portWrite b .ok) .ok 0) ∧
        s.device.takes bs = some d ∧ bs.length = emitsMade w s.regs.cnt.toNat ∧
        s.regs.pendingBits ++ bitsOf w s.operandA.toNat =
          streamBits bs ++ Regs.pendingBits { s.regs with buf := buf, cnt := cnt } ∧
        1 ≤ cnt.toNat ∧ cnt.toNat ≤ 8 ∧ buf.toNat % 2 ^ cnt.toNat = 0

/-- R115, R177: when an emit of PUTBITS fails, the bytes emitted before it stand, nothing comes after it, the command answers
`IOError`, `FAULT = 1`, `CNT = 0`, and `BUF` holds the byte that failed, which is the next one of the stream. -/
def Obligations.FailedEmitEndsPutbits : Prop :=
  ∀ (s : State) (w : Nat) (bs : Bytes) (b : Byte) (d d' : Device),
    s.regs.active = true → s.regs.mode = .write → s.regs.fault = false →
    1 ≤ s.regs.cnt.toNat → s.regs.cnt.toNat ≤ 8 → s.regs.buf.toNat % 2 ^ s.regs.cnt.toNat = 0 → w ≤ 64 →
    streamBits (bs ++ [b]) <+: s.regs.pendingBits ++ bitsOf w s.operandA.toNat →
    s.device.takes bs = some d → d.write b = some (.err, d') →
      exec (.putbits w) s = .next
        (s.after { s.regs with buf := b, cnt := 0, fault := true } d'
          (bs.map (fun c => .portWrite c .ok) ++ [.portWrite b .err]) .ioError 0)

/-- R112: a PUTBITS of `W` bits and the `W` PUTBITs of its bits, most significant first, issue the same writes with the same
answers and leave the same registers, whatever the device answers; when an emit fails, the PUTBITs end in `IOError` too. -/
def Obligations.PutbitsEqualsItsPutbits : Prop :=
  ∀ (s : State) (w : Nat), s.regs.active = true → s.regs.mode = .write → s.regs.fault = false →
    1 ≤ s.regs.cnt.toNat → s.regs.cnt.toNat ≤ 8 → w ≤ 64 →
    s.device.answersWrites (emitsMade w s.regs.cnt.toNat) →
      ∃ t u, exec (.putbits w) s = .next t ∧ putbitSequence (bitsOf w s.operandA.toNat) s = .next u ∧
        t.regs = u.regs ∧ t.traffic = u.traffic ∧ t.device = u.device ∧
        (t.response = some ⟨.ioError, 0⟩ → u.response = some ⟨.ioError, 0⟩)

/-- R113: PUTBITS uses only `A mod 2^W`. -/
def Obligations.PutbitsUsesOnlyTheLowBits : Prop :=
  ∀ (s t : State) (w : Nat) (c : Command) (a : Word64), c.a.toNat % 2 ^ w = a.toNat % 2 ^ w →
    exec (.putbits w) { s with latched := some c } = .next t →
      exec (.putbits w) { s with latched := some { c with a := a } } = .next { t with latched := some { c with a := a } }

/-! ### GETBIT, GETBITS -/

/-- R130: with bits buffered, GETBIT answers the highest unconsumed one and issues nothing. -/
def Obligations.GetbitTakesTheNextBufferedBit : Prop :=
  ∀ s : State, s.regs.active = true → s.regs.mode = .read → s.regs.fault = false →
    1 ≤ s.regs.cnt.toNat → s.regs.cnt.toNat ≤ 8 →
      exec .getbit s = .next
        (s.after { s.regs with cnt := s.regs.cnt - 1 } s.device [] .ok
          (if s.regs.buf.getLsbD (s.regs.cnt.toNat - 1) then 1 else 0))

/-- R130, R48, R136: with nothing buffered GETBIT fetches. A byte gives its bit 7 and leaves 7 bits; end-of-file sets `EOFS`
and answers `EndOfStream`; a failure sets `FAULT` and answers `IOError`. -/
def Obligations.GetbitFetchesWhenEmpty : Prop :=
  ∀ (s : State) (d : Device), s.regs.active = true → s.regs.mode = .read → s.regs.fault = false → s.regs.cnt = 0 →
    s.regs.eofs = false →
      (∀ b, s.device.read = some (.byte b, d) →
        exec .getbit s = .next
          (s.after { s.regs with buf := b, cnt := 7 } d [.portRead (.byte b)] .ok (if b.getLsbD 7 then 1 else 0))) ∧
      (s.device.read = some (.eof, d) →
        exec .getbit s = .next (s.after { s.regs with eofs := true } d [.portRead .eof] .endOfStream 0)) ∧
      (s.device.read = some (.err, d) →
        exec .getbit s = .next (s.after { s.regs with fault := true } d [.portRead .err] .ioError 0))

/-- R132, R135, R48: once a fetch has reported end-of-file, GETBIT and GETBITS of every legal width, 0 too, answer
`EndOfStream`, change nothing and ask the device nothing. -/
def Obligations.EndOfFileIsSticky : Prop :=
  ∀ (s : State) (w : Nat), s.regs.active = true → s.regs.mode = .read → s.regs.fault = false → s.regs.cnt = 0 →
    s.regs.eofs = true → w ≤ 64 →
      exec .getbit s = .next (s.rejected .endOfStream) ∧ exec (.getbits w) s = .next (s.rejected .endOfStream)

/-- R131, R53: GETBITS completes when the device gives the bytes it needs. Its value has no more than `W` bits; the bits that
were buffered and the bits of the bytes fetched are the bits of the value, most significant first, followed by the bits now
buffered; no other register or part of the state changes. -/
def Obligations.GetbitsTakesTheFieldFromTheStream : Prop :=
  ∀ (s : State) (w : Nat) (bs : Bytes) (d : Device), s.regs.active = true → s.regs.mode = .read → s.regs.fault = false →
    s.regs.eofs = false → s.regs.cnt.toNat ≤ 8 → w ≤ 64 →
    bs.length = fetchesNeeded w s.regs.cnt.toNat → s.device.delivers bs = some d →
      ∃ (v : Word64) (cnt : BitVec 4),
        exec (.getbits w) s = .next
          (s.after { s.regs with buf := lastByte s.regs.buf bs, cnt := cnt } d
            (bs.map fun b => .portRead (.byte b)) .ok v) ∧
        v.toNat < 2 ^ w ∧ cnt.toNat ≤ 8 ∧
        s.regs.unconsumedBits ++ streamBits bs =
          bitsOf w v.toNat ++ Regs.unconsumedBits { s.regs with buf := lastByte s.regs.buf bs, cnt := cnt }

/-- R133: a GETBITS that meets end-of-file after the bytes `bs` answers Ok: the bits gathered stand in the highest places of
the field and the missing low bits are 0; `CNT = 0`, `EOFS = 1`, and `BUF` keeps its last byte. The layout is the spec's
decision D11 (I4). -/
def Obligations.ShortReadAnswersOkWithZeros : Prop :=
  ∀ (s : State) (w : Nat) (bs : Bytes) (d d' : Device), s.regs.active = true → s.regs.mode = .read →
    s.regs.fault = false → s.regs.eofs = false → s.regs.cnt.toNat ≤ 8 → w ≤ 64 →
    bs.length < fetchesNeeded w s.regs.cnt.toNat → s.device.delivers bs = some d → d.read = some (.eof, d') →
      ∃ v : Word64,
        exec (.getbits w) s = .next
          (s.after { s.regs with buf := lastByte s.regs.buf bs, cnt := 0, eofs := true } d'
            (bs.map (fun b => .portRead (.byte b)) ++ [.portRead .eof]) .ok v) ∧
        v.toNat < 2 ^ w ∧
        bitsOf w v.toNat =
          s.regs.unconsumedBits ++ streamBits bs ++
            List.replicate (w - (s.regs.cnt.toNat + 8 * bs.length)) false

/-- R136: when a fetch of GETBITS fails after the bytes `bs`, the command answers `IOError` with value 0 and `FAULT = 1`;
`CNT` is 0, `BUF` is not changed by the failed fetch, and the bits gathered are lost. -/
def Obligations.FailedFetchEndsGetbits : Prop :=
  ∀ (s : State) (w : Nat) (bs : Bytes) (d d' : Device), s.regs.active = true → s.regs.mode = .read →
    s.regs.fault = false → s.regs.eofs = false → s.regs.cnt.toNat ≤ 8 → w ≤ 64 →
    bs.length < fetchesNeeded w s.regs.cnt.toNat → s.device.delivers bs = some d → d.read = some (.err, d') →
      exec (.getbits w) s = .next
        (s.after { s.regs with buf := lastByte s.regs.buf bs, cnt := 0, fault := true } d'
          (bs.map (fun b => .portRead (.byte b)) ++ [.portRead .err]) .ioError 0)

/-- R134: when every fetch answers a byte, a GETBITS of `W` bits and `W` GETBITs issue the same reads, leave the same
registers, and the GETBITs answer the bits of the value from bit `W-1` down. -/
def Obligations.GetbitsEqualsItsGetbits : Prop :=
  ∀ (s : State) (w : Nat) (bs : Bytes) (d : Device), s.regs.active = true → s.regs.mode = .read → s.regs.fault = false →
    s.regs.eofs = false → s.regs.cnt.toNat ≤ 8 → w ≤ 64 →
    bs.length = fetchesNeeded w s.regs.cnt.toNat → s.device.delivers bs = some d →
      ∃ t u v, exec (.getbits w) s = .next t ∧ t.okValue = some v ∧
        getbitSequence w s = some (bitsOf w v.toNat, u) ∧
        t.regs = u.regs ∧ t.traffic = u.traffic ∧ t.device = u.device

/-! ### SEEK, TELL -/

/-- R150, R151, R153: SEEK discards the buffered bits before it asks the device and whatever the device answers; the offset is
`A` as a signed number. `OK` clears `EOFS` and answers Ok, end-of-file answers `EndOfStream`, a failure answers `IOError`;
neither failure touches `EOFS` or `FAULT`. -/
def Obligations.SeekDiscardsAndRepositions : Prop :=
  ∀ (s : State) (wh : Whence) (r : SeekAnswer) (d : Device), s.regs.active = true → s.regs.fault = false →
    s.device.seek s.operandA.toInt wh = some (r, d) →
      exec (.seek wh) s = .next
        (s.after
          { s.regs with
            buf := 0
            cnt := if s.regs.mode = .read then 0 else 8
            eofs := if r = .ok then false else s.regs.eofs }
          d [.portSeek s.operandA.toInt wh r]
          (match r with
            | .ok => .ok
            | .eof => .endOfStream
            | .err => .ioError) 0)

/-- R151: bits pending when a SEEK comes are never written: CLOSE after it makes no `PortWrite`, however many were pending and
whatever the device answered to the SEEK. -/
def Obligations.SeekThenCloseLosesThePartialByte : Prop :=
  ∀ (s : State) (wh : Whence) (r : SeekAnswer) (d d' : Device) (r' : IoAnswer) (m : Allocator),
    s.regs.active = true → s.regs.mode = .write → s.regs.fault = false →
    s.device.seek s.operandA.toInt wh = some (r, d) → d.close = some (r', d') →
    (if s.regs.owns then s.allocator.free = some m else m = s.allocator) →
      ∃ t u, exec (.seek wh) s = .next t ∧ exec .close t = .next u ∧ u.regs.active = false ∧
        u.traffic = s.traffic ++ [.portSeek s.operandA.toInt wh r, .portClose r'] ++
          (if s.regs.owns then [.free s.regs.wsbase] else [])

/-- R154, R156: TELL answers the position the device gives, in either mode, or `IOError` when it gives none; it changes no
register, so a failure does not set `FAULT`. -/
def Obligations.TellAnswersTheDevicePosition : Prop :=
  ∀ (s : State) (d : Device), s.regs.active = true → s.regs.fault = false →
    (∀ n, s.device.tell = some (.pos n, d) →
      exec .tell s = .next (s.after s.regs d [.portTell (.pos n)] .ok n)) ∧
    (s.device.tell = some (.err, d) → exec .tell s = .next (s.after s.regs d [.portTell .err] .ioError 0))

/-! ### Whole streams, on the reference device of R50 -/

/-- R155, Write mode: after `k` bits put from a fresh accumulator with the reference device at position 0, TELL answers
`floor(k / 8)`. -/
def Obligations.TellCountsTheBytesEmitted : Prop :=
  ∀ (s : State) (f : RefDevice) (name content : Bytes) (fields : List (Nat × Word64)),
    s.device = .reference f → f.current = some name → lookupFile name f.files = some content → f.pos = 0 →
    s.regs.active = true → s.regs.mode = .write → s.regs.fault = false → s.regs.cnt = 8 → s.regs.buf = 0 →
    (∀ p ∈ fields, p.1 ≤ 64) → (fields.map Prod.fst).sum / 8 < 2 ^ 64 →
      ∃ t u, putbitsSequence fields s = .next t ∧ exec .tell t = .next u ∧
        u.response = some ⟨.ok, BitVec.ofNat 64 ((fields.map Prod.fst).sum / 8)⟩

/-- R155, Read mode: after `k` bits got with no end-of-file met, from an empty accumulator with the reference device at
position 0, TELL answers `ceil(k / 8)`. -/
def Obligations.TellCountsTheBytesFetched : Prop :=
  ∀ (s : State) (f : RefDevice) (name content : Bytes) (widths : List Nat),
    s.device = .reference f → f.current = some name → lookupFile name f.files = some content → f.pos = 0 →
    s.regs.active = true → s.regs.mode = .read → s.regs.fault = false → s.regs.eofs = false → s.regs.cnt = 0 →
    (∀ w ∈ widths, w ≤ 64) → widths.sum ≤ 8 * content.length → (widths.sum + 7) / 8 < 2 ^ 64 →
      ∃ vs t u, getbitsSequence widths s = some (vs, t) ∧ exec .tell t = .next u ∧
        u.response = some ⟨.ok, BitVec.ofNat 64 ((widths.sum + 7) / 8)⟩

/-- R135: reading a file of `N` bytes bit by bit, the first `8N` GETBITs answer its bits, most significant first, and the next
one answers `EndOfStream`. -/
def Obligations.EndOfStreamAfterTheLastBit : Prop :=
  ∀ (s : State) (f : RefDevice) (name content : Bytes),
    s.device = .reference f → f.current = some name → lookupFile name f.files = some content → f.pos = 0 →
    s.regs.active = true → s.regs.mode = .read → s.regs.fault = false → s.regs.eofs = false → s.regs.cnt = 0 →
      ∃ t u, getbitSequence (8 * content.length) s = some (streamBits content, t) ∧
        exec .getbit t = .next u ∧ u.response = some ⟨.endOfStream, 0⟩ ∧ u.regs.eofs = true ∧ u.regs.cnt = 0

/-- R138: the round trip, as steps of the whole machine on the reference device. The host opens a file for writing, puts any
fields of 0 to 64 bits, closes it, opens it for reading and gets the same widths: every command answers Ok, and the GETBITS
answer the values put, cut to their widths. The two blocks the allocator gives are such as R51 allows. That
the run is exactly two steps for each command is the model's form: a command is one step (assumption log 1) and the taking of
its response is another (assumption log 5). -/
def Obligations.RoundTripGivesTheFieldsBack : Prop :=
  ∀ (s : State) (path : Bytes) (files : List (Bytes × Bytes)) (fields : List (Nat × Word64)) (a₁ a₂ : Word64),
    s.regs = Regs.reset → s.fsm = .idle → s.latched = none → s.response = none → s.exchanges = [] →
    s.resetLine = false → s.hostReady = true → s.device = .reference ⟨files, none, 0⟩ →
    s.allocator = { allocs := [.addr a₁, .addr a₂], frees := 2 } →
    a₁.toNat + s.cfg.workspaceSize ≤ 2 ^ 64 → a₂.toNat + s.cfg.workspaceSize ≤ 2 ^ 64 →
    s.offered = roundTripProgram path fields → (∀ p ∈ fields, p.1 ≤ 64) →
      ∃ t : State, Host.Core.run Sys2Proof.core (2 * (roundTripProgram path fields).length) s = .next t ∧
        t.exchanges.map Exchange.command = roundTripProgram path fields ∧
        t.exchanges.map Exchange.response =
          ⟨.ok, placementHandle a₁⟩ :: fields.map (fun _ => ⟨.ok, 0⟩) ++
            ⟨.ok, 0⟩ :: ⟨.ok, placementHandle a₂⟩ ::
              fields.map (fun p => ⟨.ok, BitVec.ofNat 64 (p.2.toNat % 2 ^ p.1)⟩) ++ [⟨.ok, 0⟩]
end

