-- ==== Sys2Proof/Laws/PerInstr.lean ====
section
/-! SUPPORT. Statements for all instructions, made per instruction: the encoding of a well-formed instruction belongs to the
row of the opcode table that the instruction stands for (R78). -/

namespace Sys2Proof.Laws.EncodesRow

open Sys2Proof

/-- The word of a well-formed instruction matches the instruction's row of the opcode table. -/
def Statement (i : Instr) : Prop := i.wellFormed = true → i.row.matchesWord (encode i) = true

/-- A PUTBITS or GETBITS word matches its row at every width a word can carry. -/
theorem width_matches (w : Nat) (h : widthEncodable w = true) :
    rowPutbits.matchesWord (encode (.putbits w)) = true ∧ rowGetbits.matchesWord (encode (.getbits w)) = true := by
  have hw : w < 256 := by simp [widthEncodable] at h; omega
  have nibbles : ∀ a b : Fin 16,
      rowPutbits.matchesWord (encode (.putbits (16 * a + b))) = true ∧
        rowGetbits.matchesWord (encode (.getbits (16 * a + b))) = true := by decide
  have split : 16 * (w / 16) + w % 16 = w := Nat.div_add_mod w 16
  have key := nibbles ⟨w / 16, by omega⟩ ⟨w % 16, by omega⟩
  simpa only [split] using key

theorem wssize : Statement .wssize := fun _ => by decide

theorem openFile (ws : Bool) : Statement (.openFile ws) := fun _ => by cases ws <;> decide

theorem close : Statement .close := fun _ => by decide

theorem putbit : Statement .putbit := fun _ => by decide

theorem putbits (w : Nat) : Statement (.putbits w) := fun h => (width_matches w h).1

theorem getbit : Statement .getbit := fun _ => by decide

theorem getbits (w : Nat) : Statement (.getbits w) := fun h => (width_matches w h).2

theorem seek (wh : Whence) : Statement (.seek wh) := fun _ => by cases wh <;> decide

theorem tell : Statement .tell := fun _ => by decide

end Sys2Proof.Laws.EncodesRow
end

