-- ==== Sys2Proof/Laws/State.lean ====
section
/-! SUPPORT. What each update of the state and of the registers does to each field: one lemma per field, true by unfolding,
so that no proof unfolds a record update. -/

namespace Sys2Proof.Machine

open Sys2Proof

/-! ### `State.setRegs` -/

@[simp] theorem State.setRegs_cfg (r : Regs) (s : State) : (s.setRegs r).cfg = s.cfg := rfl
@[simp] theorem State.setRegs_regs (r : Regs) (s : State) : (s.setRegs r).regs = r := rfl
@[simp] theorem State.setRegs_fsm (r : Regs) (s : State) : (s.setRegs r).fsm = s.fsm := rfl
@[simp] theorem State.setRegs_latched (r : Regs) (s : State) : (s.setRegs r).latched = s.latched := rfl
@[simp] theorem State.setRegs_response (r : Regs) (s : State) : (s.setRegs r).response = s.response := rfl
@[simp] theorem State.setRegs_file (r : Regs) (s : State) : (s.setRegs r).file = s.file := rfl
@[simp] theorem State.setRegs_offered (r : Regs) (s : State) : (s.setRegs r).offered = s.offered := rfl
@[simp] theorem State.setRegs_hostReady (r : Regs) (s : State) : (s.setRegs r).hostReady = s.hostReady := rfl
@[simp] theorem State.setRegs_resetLine (r : Regs) (s : State) : (s.setRegs r).resetLine = s.resetLine := rfl
@[simp] theorem State.setRegs_device (r : Regs) (s : State) : (s.setRegs r).device = s.device := rfl
@[simp] theorem State.setRegs_allocator (r : Regs) (s : State) : (s.setRegs r).allocator = s.allocator := rfl
@[simp] theorem State.setRegs_exchanges (r : Regs) (s : State) : (s.setRegs r).exchanges = s.exchanges := rfl
@[simp] theorem State.setRegs_traffic (r : Regs) (s : State) : (s.setRegs r).traffic = s.traffic := rfl

/-! ### `State.respond` -/

@[simp] theorem State.respond_cfg (st : Status) (v : Word64) (s : State) : (s.respond st v).cfg = s.cfg := rfl
@[simp] theorem State.respond_regs (st : Status) (v : Word64) (s : State) : (s.respond st v).regs = s.regs := rfl
@[simp] theorem State.respond_fsm (st : Status) (v : Word64) (s : State) : (s.respond st v).fsm = .resp := rfl
@[simp] theorem State.respond_latched (st : Status) (v : Word64) (s : State) : (s.respond st v).latched = s.latched := rfl
@[simp] theorem State.respond_response (st : Status) (v : Word64) (s : State) : (s.respond st v).response = some ⟨st, v⟩ := rfl
@[simp] theorem State.respond_file (st : Status) (v : Word64) (s : State) : (s.respond st v).file = s.file := rfl
@[simp] theorem State.respond_offered (st : Status) (v : Word64) (s : State) : (s.respond st v).offered = s.offered := rfl
@[simp] theorem State.respond_hostReady (st : Status) (v : Word64) (s : State) : (s.respond st v).hostReady = s.hostReady := rfl
@[simp] theorem State.respond_resetLine (st : Status) (v : Word64) (s : State) : (s.respond st v).resetLine = s.resetLine := rfl
@[simp] theorem State.respond_device (st : Status) (v : Word64) (s : State) : (s.respond st v).device = s.device := rfl
@[simp] theorem State.respond_allocator (st : Status) (v : Word64) (s : State) : (s.respond st v).allocator = s.allocator := rfl
@[simp] theorem State.respond_exchanges (st : Status) (v : Word64) (s : State) : (s.respond st v).exchanges = s.exchanges := rfl
@[simp] theorem State.respond_traffic (st : Status) (v : Word64) (s : State) : (s.respond st v).traffic = s.traffic := rfl

/-! ### `State.park` -/

@[simp] theorem State.park_cfg (f : Fsm) (s : State) : (s.park f).cfg = s.cfg := rfl
@[simp] theorem State.park_regs (f : Fsm) (s : State) : (s.park f).regs = s.regs := rfl
@[simp] theorem State.park_fsm (f : Fsm) (s : State) : (s.park f).fsm = f := rfl
@[simp] theorem State.park_latched (f : Fsm) (s : State) : (s.park f).latched = s.latched := rfl
@[simp] theorem State.park_response (f : Fsm) (s : State) : (s.park f).response = s.response := rfl
@[simp] theorem State.park_file (f : Fsm) (s : State) : (s.park f).file = s.file := rfl
@[simp] theorem State.park_offered (f : Fsm) (s : State) : (s.park f).offered = s.offered := rfl
@[simp] theorem State.park_hostReady (f : Fsm) (s : State) : (s.park f).hostReady = s.hostReady := rfl
@[simp] theorem State.park_resetLine (f : Fsm) (s : State) : (s.park f).resetLine = s.resetLine := rfl
@[simp] theorem State.park_device (f : Fsm) (s : State) : (s.park f).device = s.device := rfl
@[simp] theorem State.park_allocator (f : Fsm) (s : State) : (s.park f).allocator = s.allocator := rfl
@[simp] theorem State.park_exchanges (f : Fsm) (s : State) : (s.park f).exchanges = s.exchanges := rfl
@[simp] theorem State.park_traffic (f : Fsm) (s : State) : (s.park f).traffic = s.traffic := rfl

/-! ### `State.transacted` -/

@[simp] theorem State.transacted_cfg (d : Device) (x : Transaction) (s : State) : (s.transacted d x).cfg = s.cfg := rfl
@[simp] theorem State.transacted_regs (d : Device) (x : Transaction) (s : State) : (s.transacted d x).regs = s.regs := rfl
@[simp] theorem State.transacted_fsm (d : Device) (x : Transaction) (s : State) : (s.transacted d x).fsm = s.fsm := rfl
@[simp] theorem State.transacted_latched (d : Device) (x : Transaction) (s : State) : (s.transacted d x).latched = s.latched := rfl
@[simp] theorem State.transacted_response (d : Device) (x : Transaction) (s : State) : (s.transacted d x).response = s.response := rfl
@[simp] theorem State.transacted_file (d : Device) (x : Transaction) (s : State) : (s.transacted d x).file = s.file := rfl
@[simp] theorem State.transacted_offered (d : Device) (x : Transaction) (s : State) : (s.transacted d x).offered = s.offered := rfl
@[simp] theorem State.transacted_hostReady (d : Device) (x : Transaction) (s : State) : (s.transacted d x).hostReady = s.hostReady := rfl
@[simp] theorem State.transacted_resetLine (d : Device) (x : Transaction) (s : State) : (s.transacted d x).resetLine = s.resetLine := rfl
@[simp] theorem State.transacted_device (d : Device) (x : Transaction) (s : State) : (s.transacted d x).device = d := rfl
@[simp] theorem State.transacted_allocator (d : Device) (x : Transaction) (s : State) : (s.transacted d x).allocator = s.allocator := rfl
@[simp] theorem State.transacted_exchanges (d : Device) (x : Transaction) (s : State) : (s.transacted d x).exchanges = s.exchanges := rfl
@[simp] theorem State.transacted_traffic (d : Device) (x : Transaction) (s : State) : (s.transacted d x).traffic = s.traffic ++ [x] := rfl

/-! ### `State.allocated` -/

@[simp] theorem State.allocated_cfg (m : Allocator) (x : Transaction) (s : State) : (s.allocated m x).cfg = s.cfg := rfl
@[simp] theorem State.allocated_regs (m : Allocator) (x : Transaction) (s : State) : (s.allocated m x).regs = s.regs := rfl
@[simp] theorem State.allocated_fsm (m : Allocator) (x : Transaction) (s : State) : (s.allocated m x).fsm = s.fsm := rfl
@[simp] theorem State.allocated_latched (m : Allocator) (x : Transaction) (s : State) : (s.allocated m x).latched = s.latched := rfl
@[simp] theorem State.allocated_response (m : Allocator) (x : Transaction) (s : State) : (s.allocated m x).response = s.response := rfl
@[simp] theorem State.allocated_file (m : Allocator) (x : Transaction) (s : State) : (s.allocated m x).file = s.file := rfl
@[simp] theorem State.allocated_offered (m : Allocator) (x : Transaction) (s : State) : (s.allocated m x).offered = s.offered := rfl
@[simp] theorem State.allocated_hostReady (m : Allocator) (x : Transaction) (s : State) : (s.allocated m x).hostReady = s.hostReady := rfl
@[simp] theorem State.allocated_resetLine (m : Allocator) (x : Transaction) (s : State) : (s.allocated m x).resetLine = s.resetLine := rfl
@[simp] theorem State.allocated_device (m : Allocator) (x : Transaction) (s : State) : (s.allocated m x).device = s.device := rfl
@[simp] theorem State.allocated_allocator (m : Allocator) (x : Transaction) (s : State) : (s.allocated m x).allocator = m := rfl
@[simp] theorem State.allocated_exchanges (m : Allocator) (x : Transaction) (s : State) : (s.allocated m x).exchanges = s.exchanges := rfl
@[simp] theorem State.allocated_traffic (m : Allocator) (x : Transaction) (s : State) : (s.allocated m x).traffic = s.traffic ++ [x] := rfl

/-! ### `State.bind` -/

@[simp] theorem State.bind_cfg (f : Option FileBinding) (s : State) : (s.bind f).cfg = s.cfg := rfl
@[simp] theorem State.bind_regs (f : Option FileBinding) (s : State) : (s.bind f).regs = s.regs := rfl
@[simp] theorem State.bind_fsm (f : Option FileBinding) (s : State) : (s.bind f).fsm = s.fsm := rfl
@[simp] theorem State.bind_latched (f : Option FileBinding) (s : State) : (s.bind f).latched = s.latched := rfl
@[simp] theorem State.bind_response (f : Option FileBinding) (s : State) : (s.bind f).response = s.response := rfl
@[simp] theorem State.bind_file (f : Option FileBinding) (s : State) : (s.bind f).file = f := rfl
@[simp] theorem State.bind_offered (f : Option FileBinding) (s : State) : (s.bind f).offered = s.offered := rfl
@[simp] theorem State.bind_hostReady (f : Option FileBinding) (s : State) : (s.bind f).hostReady = s.hostReady := rfl
@[simp] theorem State.bind_resetLine (f : Option FileBinding) (s : State) : (s.bind f).resetLine = s.resetLine := rfl
@[simp] theorem State.bind_device (f : Option FileBinding) (s : State) : (s.bind f).device = s.device := rfl
@[simp] theorem State.bind_allocator (f : Option FileBinding) (s : State) : (s.bind f).allocator = s.allocator := rfl
@[simp] theorem State.bind_exchanges (f : Option FileBinding) (s : State) : (s.bind f).exchanges = s.exchanges := rfl
@[simp] theorem State.bind_traffic (f : Option FileBinding) (s : State) : (s.bind f).traffic = s.traffic := rfl

/-! ### `State.accept` -/

@[simp] theorem State.accept_cfg (c : Command) (rest : List Command) (s : State) : (s.accept c rest).cfg = s.cfg := rfl
@[simp] theorem State.accept_regs (c : Command) (rest : List Command) (s : State) : (s.accept c rest).regs = s.regs := rfl
@[simp] theorem State.accept_fsm (c : Command) (rest : List Command) (s : State) : (s.accept c rest).fsm = .exec := rfl
@[simp] theorem State.accept_latched (c : Command) (rest : List Command) (s : State) : (s.accept c rest).latched = some c := rfl
@[simp] theorem State.accept_response (c : Command) (rest : List Command) (s : State) : (s.accept c rest).response = s.response := rfl
@[simp] theorem State.accept_file (c : Command) (rest : List Command) (s : State) : (s.accept c rest).file = s.file := rfl
@[simp] theorem State.accept_offered (c : Command) (rest : List Command) (s : State) : (s.accept c rest).offered = rest := rfl
@[simp] theorem State.accept_hostReady (c : Command) (rest : List Command) (s : State) : (s.accept c rest).hostReady = s.hostReady := rfl
@[simp] theorem State.accept_resetLine (c : Command) (rest : List Command) (s : State) : (s.accept c rest).resetLine = s.resetLine := rfl
@[simp] theorem State.accept_device (c : Command) (rest : List Command) (s : State) : (s.accept c rest).device = s.device := rfl
@[simp] theorem State.accept_allocator (c : Command) (rest : List Command) (s : State) : (s.accept c rest).allocator = s.allocator := rfl
@[simp] theorem State.accept_exchanges (c : Command) (rest : List Command) (s : State) : (s.accept c rest).exchanges = s.exchanges := rfl
@[simp] theorem State.accept_traffic (c : Command) (rest : List Command) (s : State) : (s.accept c rest).traffic = s.traffic := rfl

/-! ### `State.takeResponse` -/

@[simp] theorem State.takeResponse_cfg (s : State) : (s.takeResponse).cfg = s.cfg := rfl
@[simp] theorem State.takeResponse_regs (s : State) : (s.takeResponse).regs = s.regs := rfl
@[simp] theorem State.takeResponse_fsm (s : State) : (s.takeResponse).fsm = .idle := rfl
@[simp] theorem State.takeResponse_latched (s : State) : (s.takeResponse).latched = none := rfl
@[simp] theorem State.takeResponse_response (s : State) : (s.takeResponse).response = none := rfl
@[simp] theorem State.takeResponse_file (s : State) : (s.takeResponse).file = s.file := rfl
@[simp] theorem State.takeResponse_offered (s : State) : (s.takeResponse).offered = s.offered := rfl
@[simp] theorem State.takeResponse_hostReady (s : State) : (s.takeResponse).hostReady = s.hostReady := rfl
@[simp] theorem State.takeResponse_resetLine (s : State) : (s.takeResponse).resetLine = s.resetLine := rfl
@[simp] theorem State.takeResponse_device (s : State) : (s.takeResponse).device = s.device := rfl
@[simp] theorem State.takeResponse_allocator (s : State) : (s.takeResponse).allocator = s.allocator := rfl
@[simp] theorem State.takeResponse_exchanges (s : State) : (s.takeResponse).exchanges = s.exchanges ++ s.exchange := rfl
@[simp] theorem State.takeResponse_traffic (s : State) : (s.takeResponse).traffic = s.traffic := rfl

/-! ### `State.hardwareReset` -/

@[simp] theorem State.hardwareReset_cfg (s : State) : (s.hardwareReset).cfg = s.cfg := rfl
@[simp] theorem State.hardwareReset_regs (s : State) : (s.hardwareReset).regs = Regs.reset := rfl
@[simp] theorem State.hardwareReset_fsm (s : State) : (s.hardwareReset).fsm = .idle := rfl
@[simp] theorem State.hardwareReset_latched (s : State) : (s.hardwareReset).latched = none := rfl
@[simp] theorem State.hardwareReset_response (s : State) : (s.hardwareReset).response = none := rfl
@[simp] theorem State.hardwareReset_file (s : State) : (s.hardwareReset).file = s.file := rfl
@[simp] theorem State.hardwareReset_offered (s : State) : (s.hardwareReset).offered = s.offered := rfl
@[simp] theorem State.hardwareReset_hostReady (s : State) : (s.hardwareReset).hostReady = s.hostReady := rfl
@[simp] theorem State.hardwareReset_resetLine (s : State) : (s.hardwareReset).resetLine = false := rfl
@[simp] theorem State.hardwareReset_device (s : State) : (s.hardwareReset).device = s.device := rfl
@[simp] theorem State.hardwareReset_allocator (s : State) : (s.hardwareReset).allocator = s.allocator := rfl
@[simp] theorem State.hardwareReset_exchanges (s : State) : (s.hardwareReset).exchanges = s.exchanges := rfl
@[simp] theorem State.hardwareReset_traffic (s : State) : (s.hardwareReset).traffic = s.traffic := rfl

/-! ### `Regs.noteEof` -/

@[simp] theorem Regs.noteEof_active (r : Regs) : (r.noteEof).active = r.active := rfl
@[simp] theorem Regs.noteEof_mode (r : Regs) : (r.noteEof).mode = r.mode := rfl
@[simp] theorem Regs.noteEof_buf (r : Regs) : (r.noteEof).buf = r.buf := rfl
@[simp] theorem Regs.noteEof_cnt (r : Regs) : (r.noteEof).cnt = r.cnt := rfl
@[simp] theorem Regs.noteEof_owns (r : Regs) : (r.noteEof).owns = r.owns := rfl
@[simp] theorem Regs.noteEof_eofs (r : Regs) : (r.noteEof).eofs = true := rfl
@[simp] theorem Regs.noteEof_fault (r : Regs) : (r.noteEof).fault = r.fault := rfl
@[simp] theorem Regs.noteEof_wsbase (r : Regs) : (r.noteEof).wsbase = r.wsbase := rfl

/-! ### `Regs.clearEof` -/

@[simp] theorem Regs.clearEof_active (r : Regs) : (r.clearEof).active = r.active := rfl
@[simp] theorem Regs.clearEof_mode (r : Regs) : (r.clearEof).mode = r.mode := rfl
@[simp] theorem Regs.clearEof_buf (r : Regs) : (r.clearEof).buf = r.buf := rfl
@[simp] theorem Regs.clearEof_cnt (r : Regs) : (r.clearEof).cnt = r.cnt := rfl
@[simp] theorem Regs.clearEof_owns (r : Regs) : (r.clearEof).owns = r.owns := rfl
@[simp] theorem Regs.clearEof_eofs (r : Regs) : (r.clearEof).eofs = false := rfl
@[simp] theorem Regs.clearEof_fault (r : Regs) : (r.clearEof).fault = r.fault := rfl
@[simp] theorem Regs.clearEof_wsbase (r : Regs) : (r.clearEof).wsbase = r.wsbase := rfl

/-! ### `Regs.fetchFailed` -/

@[simp] theorem Regs.fetchFailed_active (r : Regs) : (r.fetchFailed).active = r.active := rfl
@[simp] theorem Regs.fetchFailed_mode (r : Regs) : (r.fetchFailed).mode = r.mode := rfl
@[simp] theorem Regs.fetchFailed_buf (r : Regs) : (r.fetchFailed).buf = r.buf := rfl
@[simp] theorem Regs.fetchFailed_cnt (r : Regs) : (r.fetchFailed).cnt = r.cnt := rfl
@[simp] theorem Regs.fetchFailed_owns (r : Regs) : (r.fetchFailed).owns = r.owns := rfl
@[simp] theorem Regs.fetchFailed_eofs (r : Regs) : (r.fetchFailed).eofs = r.eofs := rfl
@[simp] theorem Regs.fetchFailed_fault (r : Regs) : (r.fetchFailed).fault = true := rfl
@[simp] theorem Regs.fetchFailed_wsbase (r : Regs) : (r.fetchFailed).wsbase = r.wsbase := rfl

/-! ### `Regs.emitFailed` -/

@[simp] theorem Regs.emitFailed_active (r : Regs) : (r.emitFailed).active = r.active := rfl
@[simp] theorem Regs.emitFailed_mode (r : Regs) : (r.emitFailed).mode = r.mode := rfl
@[simp] theorem Regs.emitFailed_buf (r : Regs) : (r.emitFailed).buf = r.buf := rfl
@[simp] theorem Regs.emitFailed_cnt (r : Regs) : (r.emitFailed).cnt = 0 := rfl
@[simp] theorem Regs.emitFailed_owns (r : Regs) : (r.emitFailed).owns = r.owns := rfl
@[simp] theorem Regs.emitFailed_eofs (r : Regs) : (r.emitFailed).eofs = r.eofs := rfl
@[simp] theorem Regs.emitFailed_fault (r : Regs) : (r.emitFailed).fault = true := rfl
@[simp] theorem Regs.emitFailed_wsbase (r : Regs) : (r.emitFailed).wsbase = r.wsbase := rfl

/-! ### `Regs.emitted` -/

@[simp] theorem Regs.emitted_active (r : Regs) : (r.emitted).active = r.active := rfl
@[simp] theorem Regs.emitted_mode (r : Regs) : (r.emitted).mode = r.mode := rfl
@[simp] theorem Regs.emitted_buf (r : Regs) : (r.emitted).buf = 0 := rfl
@[simp] theorem Regs.emitted_cnt (r : Regs) : (r.emitted).cnt = 8 := rfl
@[simp] theorem Regs.emitted_owns (r : Regs) : (r.emitted).owns = r.owns := rfl
@[simp] theorem Regs.emitted_eofs (r : Regs) : (r.emitted).eofs = r.eofs := rfl
@[simp] theorem Regs.emitted_fault (r : Regs) : (r.emitted).fault = r.fault := rfl
@[simp] theorem Regs.emitted_wsbase (r : Regs) : (r.emitted).wsbase = r.wsbase := rfl

/-! ### `Regs.placeBit` -/

@[simp] theorem Regs.placeBit_active (b : Nat) (r : Regs) : (r.placeBit b).active = r.active := rfl
@[simp] theorem Regs.placeBit_mode (b : Nat) (r : Regs) : (r.placeBit b).mode = r.mode := rfl
@[simp] theorem Regs.placeBit_buf (b : Nat) (r : Regs) :
    (r.placeBit b).buf = BitVec.ofNat 8 (r.buf.toNat ||| (b <<< (r.cnt.toNat - 1))) := rfl
@[simp] theorem Regs.placeBit_cnt (b : Nat) (r : Regs) : (r.placeBit b).cnt = BitVec.ofNat 4 (r.cnt.toNat - 1) := rfl
@[simp] theorem Regs.placeBit_owns (b : Nat) (r : Regs) : (r.placeBit b).owns = r.owns := rfl
@[simp] theorem Regs.placeBit_eofs (b : Nat) (r : Regs) : (r.placeBit b).eofs = r.eofs := rfl
@[simp] theorem Regs.placeBit_fault (b : Nat) (r : Regs) : (r.placeBit b).fault = r.fault := rfl
@[simp] theorem Regs.placeBit_wsbase (b : Nat) (r : Regs) : (r.placeBit b).wsbase = r.wsbase := rfl

/-! ### `Regs.fillByte` -/

@[simp] theorem Regs.fillByte_active (w v : Nat) (r : Regs) : (r.fillByte w v).active = r.active := rfl
@[simp] theorem Regs.fillByte_mode (w v : Nat) (r : Regs) : (r.fillByte w v).mode = r.mode := rfl
@[simp] theorem Regs.fillByte_buf (w v : Nat) (r : Regs) :
    (r.fillByte w v).buf = BitVec.ofNat 8 (r.buf.toNat ||| lowBits r.cnt.toNat (v >>> w)) := rfl
@[simp] theorem Regs.fillByte_cnt (w v : Nat) (r : Regs) : (r.fillByte w v).cnt = r.cnt := rfl
@[simp] theorem Regs.fillByte_owns (w v : Nat) (r : Regs) : (r.fillByte w v).owns = r.owns := rfl
@[simp] theorem Regs.fillByte_eofs (w v : Nat) (r : Regs) : (r.fillByte w v).eofs = r.eofs := rfl
@[simp] theorem Regs.fillByte_fault (w v : Nat) (r : Regs) : (r.fillByte w v).fault = r.fault := rfl
@[simp] theorem Regs.fillByte_wsbase (w v : Nat) (r : Regs) : (r.fillByte w v).wsbase = r.wsbase := rfl

/-! ### `Regs.fillRest` -/

@[simp] theorem Regs.fillRest_active (w v : Nat) (r : Regs) : (r.fillRest w v).active = r.active := rfl
@[simp] theorem Regs.fillRest_mode (w v : Nat) (r : Regs) : (r.fillRest w v).mode = r.mode := rfl
@[simp] theorem Regs.fillRest_buf (w v : Nat) (r : Regs) :
    (r.fillRest w v).buf = BitVec.ofNat 8 (r.buf.toNat ||| (lowBits w v <<< (r.cnt.toNat - w))) := rfl
@[simp] theorem Regs.fillRest_cnt (w v : Nat) (r : Regs) : (r.fillRest w v).cnt = BitVec.ofNat 4 (r.cnt.toNat - w) := rfl
@[simp] theorem Regs.fillRest_owns (w v : Nat) (r : Regs) : (r.fillRest w v).owns = r.owns := rfl
@[simp] theorem Regs.fillRest_eofs (w v : Nat) (r : Regs) : (r.fillRest w v).eofs = r.eofs := rfl
@[simp] theorem Regs.fillRest_fault (w v : Nat) (r : Regs) : (r.fillRest w v).fault = r.fault := rfl
@[simp] theorem Regs.fillRest_wsbase (w v : Nat) (r : Regs) : (r.fillRest w v).wsbase = r.wsbase := rfl

/-! ### `Regs.load` -/

@[simp] theorem Regs.load_active (b : Byte) (n : BitVec 4) (r : Regs) : (r.load b n).active = r.active := rfl
@[simp] theorem Regs.load_mode (b : Byte) (n : BitVec 4) (r : Regs) : (r.load b n).mode = r.mode := rfl
@[simp] theorem Regs.load_buf (b : Byte) (n : BitVec 4) (r : Regs) : (r.load b n).buf = b := rfl
@[simp] theorem Regs.load_cnt (b : Byte) (n : BitVec 4) (r : Regs) : (r.load b n).cnt = n := rfl
@[simp] theorem Regs.load_owns (b : Byte) (n : BitVec 4) (r : Regs) : (r.load b n).owns = r.owns := rfl
@[simp] theorem Regs.load_eofs (b : Byte) (n : BitVec 4) (r : Regs) : (r.load b n).eofs = r.eofs := rfl
@[simp] theorem Regs.load_fault (b : Byte) (n : BitVec 4) (r : Regs) : (r.load b n).fault = r.fault := rfl
@[simp] theorem Regs.load_wsbase (b : Byte) (n : BitVec 4) (r : Regs) : (r.load b n).wsbase = r.wsbase := rfl

/-! ### `Regs.consume` -/

@[simp] theorem Regs.consume_active (n : Nat) (r : Regs) : (r.consume n).active = r.active := rfl
@[simp] theorem Regs.consume_mode (n : Nat) (r : Regs) : (r.consume n).mode = r.mode := rfl
@[simp] theorem Regs.consume_buf (n : Nat) (r : Regs) : (r.consume n).buf = r.buf := rfl
@[simp] theorem Regs.consume_cnt (n : Nat) (r : Regs) : (r.consume n).cnt = BitVec.ofNat 4 (r.cnt.toNat - n) := rfl
@[simp] theorem Regs.consume_owns (n : Nat) (r : Regs) : (r.consume n).owns = r.owns := rfl
@[simp] theorem Regs.consume_eofs (n : Nat) (r : Regs) : (r.consume n).eofs = r.eofs := rfl
@[simp] theorem Regs.consume_fault (n : Nat) (r : Regs) : (r.consume n).fault = r.fault := rfl
@[simp] theorem Regs.consume_wsbase (n : Nat) (r : Regs) : (r.consume n).wsbase = r.wsbase := rfl

/-! ### `Regs.drain` -/

@[simp] theorem Regs.drain_active (r : Regs) : (r.drain).active = r.active := rfl
@[simp] theorem Regs.drain_mode (r : Regs) : (r.drain).mode = r.mode := rfl
@[simp] theorem Regs.drain_buf (r : Regs) : (r.drain).buf = r.buf := rfl
@[simp] theorem Regs.drain_cnt (r : Regs) : (r.drain).cnt = 0 := rfl
@[simp] theorem Regs.drain_owns (r : Regs) : (r.drain).owns = r.owns := rfl
@[simp] theorem Regs.drain_eofs (r : Regs) : (r.drain).eofs = r.eofs := rfl
@[simp] theorem Regs.drain_fault (r : Regs) : (r.drain).fault = r.fault := rfl
@[simp] theorem Regs.drain_wsbase (r : Regs) : (r.drain).wsbase = r.wsbase := rfl

/-! ### `Regs.discard` -/

@[simp] theorem Regs.discard_active (r : Regs) : (r.discard).active = r.active := rfl
@[simp] theorem Regs.discard_mode (r : Regs) : (r.discard).mode = r.mode := rfl
@[simp] theorem Regs.discard_buf (r : Regs) : (r.discard).buf = 0 := rfl
@[simp] theorem Regs.discard_cnt (r : Regs) : (r.discard).cnt = freshCount r.mode := rfl
@[simp] theorem Regs.discard_owns (r : Regs) : (r.discard).owns = r.owns := rfl
@[simp] theorem Regs.discard_eofs (r : Regs) : (r.discard).eofs = r.eofs := rfl
@[simp] theorem Regs.discard_fault (r : Regs) : (r.discard).fault = r.fault := rfl
@[simp] theorem Regs.discard_wsbase (r : Regs) : (r.discard).wsbase = r.wsbase := rfl

/-! ### `State.reset` and `Regs.opened` -/

@[simp] theorem Regs.opened_active (dir : Mode) (owns : Bool) (base : Word64) :
    (Regs.opened dir owns base).active = true := rfl
@[simp] theorem Regs.opened_mode (dir : Mode) (owns : Bool) (base : Word64) :
    (Regs.opened dir owns base).mode = dir := rfl
@[simp] theorem Regs.opened_buf (dir : Mode) (owns : Bool) (base : Word64) :
    (Regs.opened dir owns base).buf = 0 := rfl
@[simp] theorem Regs.opened_cnt (dir : Mode) (owns : Bool) (base : Word64) :
    (Regs.opened dir owns base).cnt = freshCount dir := rfl
@[simp] theorem Regs.opened_owns (dir : Mode) (owns : Bool) (base : Word64) :
    (Regs.opened dir owns base).owns = owns := rfl
@[simp] theorem Regs.opened_eofs (dir : Mode) (owns : Bool) (base : Word64) :
    (Regs.opened dir owns base).eofs = false := rfl
@[simp] theorem Regs.opened_fault (dir : Mode) (owns : Bool) (base : Word64) :
    (Regs.opened dir owns base).fault = false := rfl
@[simp] theorem Regs.opened_wsbase (dir : Mode) (owns : Bool) (base : Word64) :
    (Regs.opened dir owns base).wsbase = base := rfl

@[simp] theorem Regs.reset_active : Regs.reset.active = false := rfl
@[simp] theorem Regs.reset_mode : Regs.reset.mode = .read := rfl
@[simp] theorem Regs.reset_buf : Regs.reset.buf = 0 := rfl
@[simp] theorem Regs.reset_cnt : Regs.reset.cnt = 0 := rfl
@[simp] theorem Regs.reset_owns : Regs.reset.owns = false := rfl
@[simp] theorem Regs.reset_eofs : Regs.reset.eofs = false := rfl
@[simp] theorem Regs.reset_fault : Regs.reset.fault = false := rfl
@[simp] theorem Regs.reset_wsbase : Regs.reset.wsbase = 0 := rfl

end Sys2Proof.Machine
end

