-- ==== Sys2Proof/Laws/Ports.lean ====
section
/-! SUPPORT. One lemma for each shared operation of Machine/Ops.lean, saying once everything it can do. -/

namespace Sys2Proof.Machine

open Sys2Proof

@[simp] theorem answer_eq (v : Word64) (s : State) : answer v s = .next (s.respond .ok v) := rfl

@[simp] theorem raise_eq (st : Status) (s : State) : raise st s = .next (s.respond st 0) := rfl

/-- Everything the allocator can answer: the next entry of its queue, if R51 allows it. -/
theorem allocator_alloc_eq_some {n : Nat} {m m' : Allocator} {r : AllocAnswer} :
    m.alloc n = some (r, m') ↔ r.allowed n = true ∧ m.allocs = r :: m'.allocs ∧ m'.frees = m.frees := by
  obtain ⟨_ | ⟨r', rest⟩, frees⟩ := m
  · simp [Allocator.alloc]
  · obtain ⟨allocs', frees'⟩ := m'
    simp only [Allocator.alloc, Option.ite_none_right_eq_some, Option.some.injEq, Prod.mk.injEq, Allocator.mk.injEq,
      List.cons.injEq]
    constructor
    · rintro ⟨h, rfl, rfl, rfl⟩
      exact ⟨h, ⟨rfl, rfl⟩, rfl⟩
    · rintro ⟨h, ⟨rfl, rfl⟩, rfl⟩
      exact ⟨h, rfl, rfl, rfl⟩

/-- An allocated block lies inside the address space (R51). -/
theorem allocated_block_fits {n : Nat} {m m' : Allocator} {a : Word64} (h : m.alloc n = some (.addr a, m')) :
    a.toNat + n ≤ 2 ^ 64 := by
  simpa [AllocAnswer.allowed] using (allocator_alloc_eq_some.1 h).1

theorem alloc_eq_some {s t : State} {r : AllocAnswer} :
    s.alloc = some (r, t) ↔
      ∃ m, s.allocator.alloc s.cfg.workspaceSize = some (r, m) ∧ t = s.allocated m (.alloc s.cfg.workspaceSize r) := by
  unfold State.alloc
  rcases s.allocator.alloc s.cfg.workspaceSize with _ | ⟨r', m⟩ <;> simp
  rintro rfl
  exact eq_comm

theorem free_eq_some {s t : State} {a : Word64} :
    s.free a = some t ↔ ∃ m, s.allocator.free = some m ∧ t = s.allocated m (.free a) := by
  unfold State.free
  rcases s.allocator.free with _ | m <;> simp [eq_comm]

theorem portOpen_eq_some {s t : State} {path rest : Bytes} {dir : Mode} {r : IoAnswer} :
    s.portOpen path dir rest = some (r, t) ↔
      ∃ d, s.device.openFile path dir = some (r, d) ∧
        t = (s.transacted d (.portOpen path dir rest r)).bind (bindingAfterOpen path dir rest r) := by
  unfold State.portOpen
  rcases s.device.openFile path dir with _ | ⟨r', d⟩ <;> simp
  rintro rfl
  exact eq_comm

theorem portRead_eq_some {s t : State} {r : ReadAnswer} :
    s.portRead = some (r, t) ↔ ∃ d, s.device.read = some (r, d) ∧ t = s.transacted d (.portRead r) := by
  unfold State.portRead
  rcases s.device.read with _ | ⟨r', d⟩ <;> simp
  rintro rfl
  exact eq_comm

theorem portWrite_eq_some {s t : State} {b : Byte} {r : IoAnswer} :
    s.portWrite b = some (r, t) ↔ ∃ d, s.device.write b = some (r, d) ∧ t = s.transacted d (.portWrite b r) := by
  unfold State.portWrite
  rcases s.device.write b with _ | ⟨r', d⟩ <;> simp
  rintro rfl
  exact eq_comm

theorem portSeek_eq_some {s t : State} {off : Int} {wh : Whence} {r : SeekAnswer} :
    s.portSeek off wh = some (r, t) ↔
      ∃ d, s.device.seek off wh = some (r, d) ∧ t = s.transacted d (.portSeek off wh r) := by
  unfold State.portSeek
  rcases s.device.seek off wh with _ | ⟨r', d⟩ <;> simp
  rintro rfl
  exact eq_comm

theorem portTell_eq_some {s t : State} {r : TellAnswer} :
    s.portTell = some (r, t) ↔ ∃ d, s.device.tell = some (r, d) ∧ t = s.transacted d (.portTell r) := by
  unfold State.portTell
  rcases s.device.tell with _ | ⟨r', d⟩ <;> simp
  rintro rfl
  exact eq_comm

theorem portClose_eq_some {s t : State} {r : IoAnswer} :
    s.portClose = some (r, t) ↔
      ∃ d, s.device.close = some (r, d) ∧ t = (s.transacted d (.portClose r)).bind none := by
  unfold State.portClose
  rcases s.device.close with _ | ⟨r', d⟩ <;> simp
  rintro rfl
  exact eq_comm

/-- Everything `Fetch()` can do: answer end-of-file without a transaction while `EOFS = 1`, or make one `PortRead` and set
`EOFS` when it reports end-of-file. -/
theorem fetch_cases {s t : State} {r : ReadAnswer} (h : s.fetch = some (r, t)) :
    (s.regs.eofs = true ∧ r = .eof ∧ t = s) ∨
    (s.regs.eofs = false ∧ ∃ d, s.device.read = some (r, d) ∧
      t = if r = .eof then (s.transacted d (.portRead r)).setRegs s.regs.noteEof
          else s.transacted d (.portRead r)) := by
  unfold State.fetch at h
  cases he : s.regs.eofs with
  | true => simp [he] at h; exact .inl ⟨rfl, h.1.symm, h.2.symm⟩
  | false =>
    simp only [he, Bool.false_eq_true, if_false] at h
    refine .inr ⟨rfl, ?_⟩
    rcases hp : s.portRead with _ | ⟨a, s'⟩
    · simp [hp] at h
    · obtain ⟨d, hd, rfl⟩ := portRead_eq_some.1 hp
      cases a <;> simp [hp] at h <;> obtain ⟨rfl, rfl⟩ := h <;> exact ⟨d, hd, by simp⟩

/-- A fetch has no answer exactly when the device has none and no end-of-file has been reported. -/
theorem fetch_eq_none {s : State} : s.fetch = none ↔ s.regs.eofs = false ∧ s.device.read = none := by
  unfold State.fetch State.portRead
  cases s.regs.eofs <;> rcases s.device.read with _ | ⟨r, d⟩ <;> simp
  cases r <;> simp

end Sys2Proof.Machine
end

