-- ==== Sys2Proof/Laws/Stages.lean ====
section
/-! SUPPORT. What each stage of a command can do, said once: if it answers a next state, one of these cases holds. -/

namespace Sys2Proof.Machine

open Sys2Proof

/-- The fields no stage of a command writes. -/
structure HostSideKept (s t : State) : Prop where
  cfg : t.cfg = s.cfg
  latched : t.latched = s.latched
  offered : t.offered = s.offered
  hostReady : t.hostReady = s.hostReady
  resetLine : t.resetLine = s.resetLine
  exchanges : t.exchanges = s.exchanges

theorem HostSideKept.refl (s : State) : HostSideKept s s := ⟨rfl, rfl, rfl, rfl, rfl, rfl⟩

theorem HostSideKept.trans {s t u : State} (h : HostSideKept s t) (k : HostSideKept t u) : HostSideKept s u :=
  ⟨k.cfg.trans h.cfg, k.latched.trans h.latched, k.offered.trans h.offered, k.hostReady.trans h.hostReady,
    k.resetLine.trans h.resetLine, k.exchanges.trans h.exchanges⟩

/-- The emit of PUTBITS: it waits, it fails, or the loop goes on with an empty accumulator. -/
theorem putbitsEmit_cases {loop : State → Outcome} {w : Nat} {v : Word64} {s : State} {o : Outcome}
    (h : putbitsEmit loop w v s = o) :
    (s.device.write s.regs.buf = none ∧ o = .next (s.park (.waitWrite (.putbits (BitVec.ofNat 7 w) v)))) ∨
    (∃ d, s.device.write s.regs.buf = some (.err, d) ∧
      o = .next (((s.transacted d (.portWrite s.regs.buf .err)).setRegs s.regs.emitFailed).respond .ioError 0)) ∨
    (∃ d, s.device.write s.regs.buf = some (.ok, d) ∧
      o = loop ((s.transacted d (.portWrite s.regs.buf .ok)).setRegs s.regs.emitted)) := by
  subst h
  unfold putbitsEmit State.portWrite
  rcases s.device.write s.regs.buf with _ | ⟨r, d⟩
  · exact .inl ⟨rfl, rfl⟩
  · cases r
    · exact .inr (.inr ⟨d, rfl, rfl⟩)
    · exact .inr (.inl ⟨d, rfl, rfl⟩)

/-- The fetch of GETBITS: it waits, it ends short, it fails, or the loop goes on with a full accumulator. -/
theorem getbitsFetch_cases {loop : State → Outcome} {w : Nat} {res : Word64} {s : State} {o : Outcome}
    (h : getbitsFetch loop w res s = o) (he : s.regs.eofs = false) :
    (s.device.read = none ∧ o = .next (s.park (.waitRead (.getbits (BitVec.ofNat 7 w) res)))) ∨
    (∃ d, s.device.read = some (.eof, d) ∧
      o = .next (((s.transacted d (.portRead .eof)).setRegs s.regs.noteEof).respond .ok res)) ∨
    (∃ d, s.device.read = some (.err, d) ∧
      o = .next (((s.transacted d (.portRead .err)).setRegs s.regs.fetchFailed).respond .ioError 0)) ∨
    (∃ b d, s.device.read = some (.byte b, d) ∧
      o = loop ((s.transacted d (.portRead (.byte b))).setRegs (s.regs.load b 8))) := by
  subst h
  unfold getbitsFetch State.fetch State.portRead
  rw [he]
  rcases s.device.read with _ | ⟨r, d⟩
  · exact .inl ⟨rfl, rfl⟩
  · cases r with
    | byte b => exact .inr (.inr (.inr ⟨b, d, rfl, rfl⟩))
    | eof => exact .inr (.inl ⟨d, rfl, rfl⟩)
    | err => exact .inr (.inr (.inl ⟨d, rfl, rfl⟩))

/-- One turn of the PUTBITS loop. -/
theorem putbitsLoop_succ (fuel w : Nat) (v : Word64) (s : State) :
    putbitsLoop (fuel + 1) w v s =
      if s.regs.cnt.toNat ≤ w then
        putbitsEmit (putbitsLoop fuel (w - s.regs.cnt.toNat) v) (w - s.regs.cnt.toNat) v
          (s.setRegs (s.regs.fillByte (w - s.regs.cnt.toNat) v.toNat))
      else .next ((s.setRegs (s.regs.fillRest w v.toNat)).respond .ok 0) := rfl

/-- One turn of the GETBITS loop. -/
theorem getbitsLoop_succ (fuel w : Nat) (res : Word64) (s : State) :
    getbitsLoop (fuel + 1) w res s =
      if s.regs.cnt.toNat < w then
        getbitsFetch
          (getbitsLoop fuel (w - s.regs.cnt.toNat) (s.regs.gatherAll (w - s.regs.cnt.toNat) res))
          (w - s.regs.cnt.toNat) (s.regs.gatherAll (w - s.regs.cnt.toNat) res) (s.setRegs s.regs.drain)
      else .next ((s.setRegs (s.regs.consume w)).respond .ok (s.regs.gatherTop w res)) := rfl

/-- No turn of the PUTBITS loop writes the host's side. -/
theorem putbitsLoop_hostSideKept :
    ∀ (fuel w : Nat) (v : Word64) (s t : State), putbitsLoop fuel w v s = .next t → HostSideKept s t
  | 0, _, _, _, _, h => by simp [putbitsLoop] at h
  | fuel + 1, w, v, s, t, h => by
    rw [putbitsLoop_succ] at h
    split at h
    · rcases putbitsEmit_cases h with ⟨-, ho⟩ | ⟨d, -, ho⟩ | ⟨d, -, ho⟩
      · cases ho; exact ⟨rfl, rfl, rfl, rfl, rfl, rfl⟩
      · cases ho; exact ⟨rfl, rfl, rfl, rfl, rfl, rfl⟩
      · have k := putbitsLoop_hostSideKept fuel _ _ _ _ ho.symm
        exact ⟨k.cfg, k.latched, k.offered, k.hostReady, k.resetLine, k.exchanges⟩
    · cases h; exact ⟨rfl, rfl, rfl, rfl, rfl, rfl⟩

/-- A turn of the PUTBITS loop with a full accumulator free moves 8 bits, so the fuel is never used up. -/
theorem putbitsLoop_answers :
    ∀ (fuel w : Nat) (v : Word64) (s : State), w < fuel → s.regs.cnt = 8 → ∃ t, putbitsLoop fuel w v s = .next t
  | 0, _, _, _, hw, _ => by omega
  | fuel + 1, w, v, s, hw, hc => by
    have h8 : s.regs.cnt.toNat = 8 := by rw [hc]; rfl
    rw [putbitsLoop_succ, h8]
    split
    · generalize ho : putbitsEmit _ _ _ _ = o
      rcases putbitsEmit_cases ho with ⟨-, rfl⟩ | ⟨d, -, rfl⟩ | ⟨d, -, rfl⟩
      · exact ⟨_, rfl⟩
      · exact ⟨_, rfl⟩
      · exact putbitsLoop_answers fuel (w - 8) v _ (by omega) rfl
    · exact ⟨_, rfl⟩

/-- A turn of the GETBITS loop with a full accumulator moves 8 bits, so the fuel is never used up. -/
theorem getbitsLoop_answers :
    ∀ (fuel w : Nat) (res : Word64) (s : State), w < fuel → s.regs.cnt = 8 → s.regs.eofs = false →
      ∃ t, getbitsLoop fuel w res s = .next t
  | 0, _, _, _, hw, _, _ => by omega
  | fuel + 1, w, res, s, hw, hc, he => by
    have h8 : s.regs.cnt.toNat = 8 := by rw [hc]; rfl
    rw [getbitsLoop_succ, h8]
    split
    · generalize ho : getbitsFetch _ _ _ _ = o
      rcases getbitsFetch_cases ho he with ⟨-, rfl⟩ | ⟨d, -, rfl⟩ | ⟨d, -, rfl⟩ | ⟨b, d, -, rfl⟩
      · exact ⟨_, rfl⟩
      · exact ⟨_, rfl⟩
      · exact ⟨_, rfl⟩
      · exact getbitsLoop_answers fuel (w - 8) _ _ (by omega) rfl he
    · exact ⟨_, rfl⟩

/-! ### The transactions of the loops -/

/-- Transactions of one kind are as many as allowed when there are no more than that. -/
theorem kinds_sublist_replicate {k : TransactionKind} {xs : List Transaction} {n : Nat} (h : ∀ x ∈ xs, x.kind = k)
    (hn : xs.length ≤ n) : (xs.map Transaction.kind).Sublist (List.replicate n k) := by
  have e : xs.map Transaction.kind = List.replicate xs.length k := by
    rw [List.eq_replicate_iff]
    exact ⟨by simp, by simpa using h⟩
  rw [e]
  exact List.replicate_sublist_replicate k |>.2 hn

/-- The PUTBITS loop makes writes alone, and no more than R56 counts. -/
theorem putbitsLoop_traffic :
    ∀ (fuel w : Nat) (v : Word64) (s t : State), 1 ≤ s.regs.cnt.toNat → s.regs.cnt.toNat ≤ 8 →
      putbitsLoop fuel w v s = .next t →
      ∃ new, t.traffic = s.traffic ++ new ∧ (∀ x ∈ new, x.kind = .portWrite) ∧
        new.length ≤ emitsMade w s.regs.cnt.toNat
  | 0, _, _, _, _, _, _, h => by simp [putbitsLoop] at h
  | fuel + 1, w, v, s, t, h1, h8, h => by
    rw [putbitsLoop_succ] at h
    split at h
    · have hm : 1 ≤ emitsMade w s.regs.cnt.toNat := by unfold emitsMade; omega
      rcases putbitsEmit_cases h with ⟨-, ho⟩ | ⟨d, -, ho⟩ | ⟨d, -, ho⟩
      · cases ho; exact ⟨[], by simp, by simp, by simp⟩
      · cases ho; exact ⟨[_], rfl, by simp [Transaction.kind], hm⟩
      · obtain ⟨new, ht, hk, hl⟩ := putbitsLoop_traffic fuel _ v _ t (show 1 ≤ (8 : BitVec 4).toNat by decide)
          (show (8 : BitVec 4).toNat ≤ 8 by decide) ho.symm
        refine ⟨.portWrite _ .ok :: new, ht.trans (List.append_assoc _ [_] _), List.forall_mem_cons.2 ⟨rfl, hk⟩, ?_⟩
        · change new.length ≤ emitsMade _ 8 at hl
          simp only [List.length_cons, emitsMade] at hl ⊢
          omega
    · cases h; exact ⟨[], by simp, by simp, by simp⟩

/-- The GETBITS loop makes reads alone, and no more than R56 counts. -/
theorem getbitsLoop_traffic :
    ∀ (fuel w : Nat) (res : Word64) (s t : State), s.regs.eofs = false → s.regs.cnt.toNat ≤ 8 →
      getbitsLoop fuel w res s = .next t →
      ∃ new, t.traffic = s.traffic ++ new ∧ (∀ x ∈ new, x.kind = .portRead) ∧
        new.length ≤ fetchesNeeded w s.regs.cnt.toNat
  | 0, _, _, _, _, _, _, h => by simp [getbitsLoop] at h
  | fuel + 1, w, res, s, t, he, h8, h => by
    rw [getbitsLoop_succ] at h
    split at h
    · have hm : 1 ≤ fetchesNeeded w s.regs.cnt.toNat := by unfold fetchesNeeded; omega
      rcases getbitsFetch_cases h he with ⟨-, ho⟩ | ⟨d, -, ho⟩ | ⟨d, -, ho⟩ | ⟨b, d, -, ho⟩
      · cases ho; exact ⟨[], by simp, by simp, by simp⟩
      · cases ho; exact ⟨[_], rfl, by simp [Transaction.kind], hm⟩
      · cases ho; exact ⟨[_], rfl, by simp [Transaction.kind], hm⟩
      · obtain ⟨new, ht, hk, hl⟩ := getbitsLoop_traffic fuel _ _ _ t (by exact he) (show (8 : BitVec 4).toNat ≤ 8 by decide) ho.symm
        refine ⟨.portRead (.byte b) :: new, ht.trans (List.append_assoc _ [_] _), List.forall_mem_cons.2 ⟨rfl, hk⟩, ?_⟩
        · change new.length ≤ fetchesNeeded _ 8 at hl
          simp only [List.length_cons, fetchesNeeded] at hl ⊢
          omega
    · cases h; exact ⟨[], by simp, by simp, by simp⟩

/-! ### The stages of CLOSE and OPEN -/

/-- The release of an owned workspace always answers a next state, with its one transaction or waiting for it. -/
theorem closeFree_answers (s : State) :
    ∃ t new, closeFree s = .next t ∧ t.traffic = s.traffic ++ new ∧ (new = [] ∨ new = [.free s.regs.wsbase]) := by
  unfold closeFree State.free
  rcases s.allocator.free with _ | m
  · exact ⟨_, [], rfl, by simp, .inl rfl⟩
  · exact ⟨_, [.free s.regs.wsbase], rfl, rfl, .inr rfl⟩

/-- CLOSE from its `PortClose` on. -/
theorem closePort_answers (s : State) :
    ∃ t new, closePort s = .next t ∧ t.traffic = s.traffic ++ new ∧
      (new = [] ∨ ∃ r more, new = .portClose r :: more ∧ (more = [] ∨ more = [.free s.regs.wsbase])) := by
  unfold closePort State.portClose
  rcases s.device.close with _ | ⟨r, d⟩
  · exact ⟨_, [], rfl, by simp, .inl rfl⟩
  · dsimp only
    split
    · obtain ⟨t, new, h, ht, hn⟩ := closeFree_answers ((s.transacted d (.portClose r)).bind none)
      exact ⟨t, .portClose r :: new, h, ht.trans (List.append_assoc _ [_] _), .inr ⟨r, new, rfl, hn⟩⟩
    · exact ⟨_, [.portClose r], rfl, rfl, .inr ⟨r, [], rfl, .inl rfl⟩⟩

/-- CLOSE from its flush on. -/
theorem closeFlush_answers (s : State) :
    (s.device.write s.regs.buf = none ∧ closeFlush s = .next (s.park (.waitWrite .close))) ∨
    ∃ r d, s.device.write s.regs.buf = some (r, d) ∧
      closeFlush s = closePort (s.transacted d (.portWrite s.regs.buf r)) := by
  unfold closeFlush State.portWrite
  rcases s.device.write s.regs.buf with _ | ⟨r, d⟩
  · exact .inl ⟨rfl, rfl⟩
  · exact .inr ⟨r, d, rfl, rfl⟩

/-- The release of the workspace of an OPEN that failed. -/
theorem openFree_answers (base : Word64) (s : State) :
    ∃ t new, openFree base s = .next t ∧ t.traffic = s.traffic ++ new ∧ (new = [] ∨ new = [.free base]) := by
  unfold openFree State.free
  rcases s.allocator.free with _ | m
  · exact ⟨_, [], rfl, by simp, .inl rfl⟩
  · exact ⟨_, [.free base], rfl, rfl, .inr rfl⟩

/-- OPEN from its `PortOpen` on; only an owned workspace is released. -/
theorem openPort_answers (dir : Mode) (owns : Bool) (base : Word64) (s : State) :
    ∃ t new, openPort dir owns base s = .next t ∧ t.traffic = s.traffic ++ new ∧
      (new = [] ∨ ∃ r more, new = .portOpen s.openPath dir s.openRest r :: more ∧
        (more = [] ∨ owns = true ∧ more = [.free base])) := by
  unfold openPort State.portOpen
  rcases s.device.openFile s.openPath dir with _ | ⟨r, d⟩
  · exact ⟨_, [], rfl, by simp, .inl rfl⟩
  · cases r with
    | ok => exact ⟨_, [.portOpen s.openPath dir s.openRest .ok], rfl, rfl, .inr ⟨.ok, [], rfl, .inl rfl⟩⟩
    | err =>
      cases owns with
      | false => exact ⟨_, [.portOpen s.openPath dir s.openRest .err], rfl, rfl, .inr ⟨.err, [], rfl, .inl rfl⟩⟩
      | true =>
        obtain ⟨t, new, h, ht, hn⟩ := openFree_answers base
          ((s.transacted d (.portOpen s.openPath dir s.openRest .err)).bind none)
        exact ⟨t, .portOpen s.openPath dir s.openRest .err :: new, h, ht.trans (List.append_assoc _ [_] _),
          .inr ⟨.err, new, rfl, hn.imp_right fun k => ⟨rfl, k⟩⟩⟩

/-- OPEN from its `Alloc` on. -/
theorem openAlloc_answers (dir : Mode) (s : State) :
    ∃ t new, openAlloc dir s = .next t ∧ t.traffic = s.traffic ++ new ∧
      (new = [] ∨ new = [.alloc s.cfg.workspaceSize .fail] ∨
        ∃ a more, new = .alloc s.cfg.workspaceSize (.addr a) :: more ∧
          (more = [] ∨ ∃ r rest, more = .portOpen s.openPath dir s.openRest r :: rest ∧ (rest = [] ∨ rest = [.free a]))) := by
  unfold openAlloc State.alloc
  rcases s.allocator.alloc s.cfg.workspaceSize with _ | ⟨r, m⟩
  · exact ⟨_, [], rfl, by simp, .inl rfl⟩
  · cases r with
    | fail => exact ⟨_, [.alloc s.cfg.workspaceSize .fail], rfl, rfl, .inr (.inl rfl)⟩
    | addr a =>
      obtain ⟨t, new, h, ht, hn⟩ := openPort_answers dir true a (s.allocated m (.alloc s.cfg.workspaceSize (.addr a)))
      refine ⟨t, .alloc s.cfg.workspaceSize (.addr a) :: new, h, ht.trans (List.append_assoc _ [_] _),
        .inr (.inr ⟨a, new, rfl, hn.imp_right ?_⟩)⟩
      rintro ⟨r, rest, k, hr⟩
      exact ⟨r, rest, k, hr.imp_right And.right⟩

end Sys2Proof.Machine
end

