-- ==== Sys2Proof/Tests/Slice0.lean ====
section
/-! SUPPORT. Tests: the well-formedness smoke tests, words of the spec's encoding written out bit by bit, one or two steps per
instruction with results from the vectors of spec/95_test_vectors.md, and, for each statement with hypotheses, a concrete
state that meets them. -/

namespace Sys2Proof.Tests

open Sys2Proof
open Sys2Proof.Machine

/-! ### Well-formedness: the terms no command word can carry -/

theorem test_putbits_255_wellFormed : (Instr.putbits 255).wellFormed = true := by decide

theorem test_putbits_256_illFormed : (Instr.putbits 256).wellFormed = false := by decide

theorem test_getbits_255_wellFormed : (Instr.getbits 255).wellFormed = true := by decide

theorem test_getbits_256_illFormed : (Instr.getbits 256).wellFormed = false := by decide

/-! ### Decoding: words written out from R72 as reserved, WS, WH, W, OP -/

theorem test_decode_wssize : decode 0b00000000000000000_0_00_00000000_0000 = .legal .wssize := by decide

theorem test_decode_open : decode 0b00000000000000000_0_00_00000000_0001 = .legal (.openFile false) := by decide

theorem test_decode_open_workspace : decode 0b00000000000000000_1_00_00000000_0001 = .legal (.openFile true) := by decide

theorem test_decode_close : decode 0b00000000000000000_0_00_00000000_0010 = .legal .close := by decide

theorem test_decode_putbit : decode 0b00000000000000000_0_00_00000000_0011 = .legal .putbit := by decide

theorem test_decode_putbits_131 : decode 0b00000000000000000_0_00_10000011_0100 = .legal (.putbits 131) := by decide

theorem test_decode_getbit : decode 0b00000000000000000_0_00_00000000_0101 = .legal .getbit := by decide

theorem test_decode_getbits_12 : decode 0b00000000000000000_0_00_00001100_0110 = .legal (.getbits 12) := by decide

theorem test_decode_seek_start : decode 0b00000000000000000_0_00_00000000_0111 = .legal (.seek .start) := by decide

theorem test_decode_seek_current : decode 0b00000000000000000_0_01_00000000_0111 = .legal (.seek .current) := by decide

theorem test_decode_seek_end : decode 0b00000000000000000_0_10_00000000_0111 = .legal (.seek .fromEnd) := by decide

theorem test_decode_tell : decode 0b00000000000000000_0_00_00000000_1000 = .legal .tell := by decide

/-- The illegal words of spec/95_test_vectors.md 2.1, each with the check of R78 that rejects it. -/
theorem test_decode_illegal :
    decode 0x00000009 = .illegal .reservedOpcode ∧ decode 0x0000000F = .illegal .reservedOpcode ∧
    decode 0x00008003 = .illegal .reservedBits ∧ decode 0x80000004 = .illegal .reservedBits ∧
    decode 0x00000013 = .illegal .unusedWidth ∧ decode 0x00001003 = .illegal .unusedWhence ∧
    decode 0x00001008 = .illegal .unusedWhence ∧ decode 0x00004002 = .illegal .unusedWorkspaceBit ∧
    decode 0x00004007 = .illegal .unusedWorkspaceBit ∧ decode 0x00003007 = .illegal .reservedWhence := by decide

theorem test_decodeTableWord : decodeTableWord 32 0x1007 = some (.seek .current) ∧ decodeTableWord 32 0x3007 = none := by
  decide

/-! ### A small state -/

/-- An idle engine with `ENTITY_SIZE = 48`, the given registers, device and allocator, and one command offered. -/
def start (r : Regs) (d : Device) (m : Allocator) (c : Command) : State :=
  { cfg := ⟨48⟩, regs := r, fsm := .idle, latched := none, response := none,
    file := if r.active then some ⟨[0x66], r.mode, []⟩ else none, offered := [c], hostReady := true, resetLine := false,
    device := d, allocator := m, exchanges := [], traffic := [] }

/-- The registers of an open stream with an owned workspace at 0x2000. -/
def openRegs (m : Mode) (buf : Byte) (cnt : BitVec 4) : Regs :=
  { active := true, mode := m, buf := buf, cnt := cnt, owns := true, eofs := false, fault := false, wsbase := 0x2000 }

/-- A command word with operand `A`. -/
def cmd (word : CmdWord) (a : Word64) : Command := { word := word, a := a, b := 0, path := none, modeStr := none }

/-- OPEN of "f" with a mode string and a workspace. -/
def openCmd (word : CmdWord) (mode : Bytes) (a b : Word64) : Command :=
  { word := word, a := a, b := b, path := some [0x66], modeStr := some mode }

/-- The step answers a next state with these registers, this response and these transactions. -/
def stepGives (s : State) (r : Regs) (p : Response) (x : List Transaction) : Bool :=
  match step s with
  | .next t => t.regs == r && t.response == some p && t.traffic == x && t.fsm == .resp
  | _ => false

/-- A device that takes every write. -/
def takesAll : Device := .scripted { writes := List.replicate 8 .ok }

/-- A device with these bytes to read, and then end-of-file. -/
def holds (bs : Bytes) : Device := .scripted { reads := bs.map .byte ++ [.eof] }

/-! ### One step of each instruction -/

/-- Vector L1. -/
theorem test_wssize : stepGives (start Regs.reset takesAll {} (cmd 0 0)) Regs.reset ⟨.ok, 64⟩ [] = true := by decide

/-- Vector L2. -/
theorem test_open_allocated :
    stepGives (start Regs.reset (.scripted { opens := [.ok] }) { allocs := [.addr 0x2008] } (openCmd 0x0001 [0x77, 0x62] 0 0))
      ⟨true, .write, 0, 8, true, false, false, 0x2008⟩ ⟨.ok, 0x2010⟩
      [.alloc 64 (.addr 0x2008), .portOpen [0x66] .write [0x62] .ok] = true := by decide

/-- R51: a block that ends at the top of the address space is an answer, and one that ends a byte above it is none. -/
theorem test_alloc_block_fits :
    ({ allocs := [.addr 0xFFFFFFFFFFFFFFC0] } : Allocator).alloc 64 = some (.addr 0xFFFFFFFFFFFFFFC0, {}) ∧
      ({ allocs := [.addr 0xFFFFFFFFFFFFFFC1] } : Allocator).alloc 64 = none := by decide

/-- Vector L17: the failed OPEN frees what it allocated. -/
theorem test_open_fails :
    stepGives
      (start Regs.reset (.scripted { opens := [.err] }) { allocs := [.addr 0x2008], frees := 1 } (openCmd 0x0001 [0x72] 0 0))
      Regs.reset ⟨.fileOpenFailed, 0⟩
      [.alloc 64 (.addr 0x2008), .portOpen [0x66] .read [] .err, .free 0x2008] = true := by decide

/-- Vectors L13, L14: the workspace that ends at the top of the address space, and one byte more. -/
theorem test_open_workspace_top :
    stepGives (start Regs.reset (.scripted { opens := [.ok] }) {} (openCmd 0x4001 [0x77] 0xFFFFFFFFFFFFFFC0 64))
      ⟨true, .write, 0, 8, false, false, false, 0xFFFFFFFFFFFFFFC0⟩ ⟨.ok, 0xFFFFFFFFFFFFFFC0⟩
      [.portOpen [0x66] .write [] .ok] = true ∧
    stepGives (start Regs.reset (.scripted { opens := [.ok] }) {} (openCmd 0x4001 [0x77] 0xFFFFFFFFFFFFFFC0 65))
      Regs.reset ⟨.invalidArgument, 0⟩ [] = true := by decide

/-- Vector L23: the flush fails, and CLOSE goes on. -/
theorem test_close_flush :
    stepGives
      (start (openRegs .write 0xC0 6) (.scripted { writes := [.err], closes := [.ok] }) { frees := 1 } (cmd 2 0))
      Regs.reset ⟨.ok, 0⟩ [.portWrite 0xC0 .err, .portClose .ok, .free 0x2000] = true := by decide

/-- Vector L25: a faulted stream is not flushed. -/
theorem test_close_faulted :
    stepGives
      (start { openRegs .write 0x34 0 with fault := true } (.scripted { closes := [.ok] }) { frees := 1 } (cmd 2 0))
      Regs.reset ⟨.ok, 0⟩ [.portClose .ok, .free 0x2000] = true := by decide

/-- Vector W2: a nonzero operand is the bit 1. -/
theorem test_putbit_nonzero :
    stepGives (start (openRegs .write 0 8) takesAll {} (cmd 3 2)) (openRegs .write 0x80 7) ⟨.ok, 0⟩ [] = true := by decide

/-- Vector W12. -/
theorem test_putbit_failed_emit :
    stepGives (start (openRegs .write 0xAA 1) (.scripted { writes := [.err] }) {} (cmd 3 1))
      { openRegs .write 0xAB 0 with fault := true } ⟨.ioError, 0⟩ [.portWrite 0xAB .err] = true := by decide

/-- Vector W7: 64 ones from five free places. -/
theorem test_putbits_64 :
    stepGives (start (openRegs .write 0xA0 5) takesAll {} (cmd 0x0404 0xFFFFFFFFFFFFFFFF)) (openRegs .write 0xE0 5) ⟨.ok, 0⟩
      (.portWrite 0xBF .ok :: List.replicate 7 (.portWrite 0xFF .ok)) = true := by decide

/-- Vector W11: the second write fails. -/
theorem test_putbits_failed_emit :
    stepGives (start (openRegs .write 0 8) (.scripted { writes := [.ok, .err] }) {} (cmd 0x0104 0xBEEF))
      { openRegs .write 0xEF 0 with fault := true } ⟨.ioError, 0⟩ [.portWrite 0xBE .ok, .portWrite 0xEF .err] = true := by
  decide

/-- Vector G3. -/
theorem test_getbit_buffered :
    stepGives (start (openRegs .read 0xBA 5) (holds []) {} (cmd 5 0)) (openRegs .read 0xBA 4) ⟨.ok, 1⟩ [] = true := by decide

/-- Vector G12. -/
theorem test_getbit_end :
    stepGives (start (openRegs .read 0 0) (holds []) {} (cmd 5 0)) { openRegs .read 0 0 with eofs := true } ⟨.endOfStream, 0⟩
      [.portRead .eof] = true := by decide

/-- Vector G7. -/
theorem test_getbits_12 :
    stepGives (start (openRegs .read 0xBA 4) (holds [0xBC]) {} (cmd 0x00C6 0)) (openRegs .read 0xBC 0) ⟨.ok, 0xABC⟩
      [.portRead (.byte 0xBC)] = true := by decide

/-- Vector G9: a short read. -/
theorem test_getbits_short :
    stepGives (start (openRegs .read 0xBA 3) (holds [0xBC, 0x0F]) {} (cmd 0x0146 0))
      { openRegs .read 0x0F 0 with eofs := true } ⟨.ok, 0x5781E⟩
      [.portRead (.byte 0xBC), .portRead (.byte 0x0F), .portRead .eof] = true := by decide

/-- Vector S2: the bits are lost though the seek fails, and the offset is signed. -/
theorem test_seek_fails :
    stepGives (start (openRegs .write 0xE0 5) (.scripted { seeks := [.err] }) {} (cmd 0x1007 0xFFFFFFFFFFFFFFFB))
      (openRegs .write 0 8) ⟨.ioError, 0⟩ [.portSeek (-5) .current .err] = true := by decide

/-- Vector S5: a seek that succeeds clears `EOFS`. -/
theorem test_seek_clears_eof :
    stepGives (start { openRegs .read 0 0 with eofs := true } (.scripted { seeks := [.ok] }) {} (cmd 7 0))
      (openRegs .read 0 0) ⟨.ok, 0⟩ [.portSeek 0 .start .ok] = true := by decide

/-- Vector S9, on the reference device. -/
theorem test_tell :
    stepGives (start (openRegs .read 0xBC 7) (.reference ⟨[([0x66], [0xBA, 0xBC, 0x0F])], some [0x66], 2⟩) {} (cmd 8 0))
      (openRegs .read 0xBC 7) ⟨.ok, 2⟩ [.portTell (.pos 2)] = true := by decide

/-- Vector S10. -/
theorem test_tell_fails :
    stepGives (start (openRegs .write 0 8) (.scripted { tells := [.err] }) {} (cmd 8 0)) (openRegs .write 0 8) ⟨.ioError, 0⟩
      [.portTell .err] = true := by decide

/-- Vector S3, the reference device: a write past the end fills the gap with zeros (R50). -/
theorem test_reference_gap : writeAt [0x11] 3 0x22 = [0x11, 0, 0, 0x22] := by decide

/-- A reset during a command (R191, R192): the engine waits for a write, and the reset abandons it without a transaction. -/
theorem test_reset_in_wait :
    (match step { start (openRegs .write 0xAB 0) (.scripted {}) {} (cmd 8 0) with
        fsm := .waitWrite .putbit, latched := some (cmd 3 1), resetLine := true } with
      | .next t => t.regs == Regs.reset && t.fsm == .idle && t.latched == none && t.traffic == [] && t.offered == [cmd 8 0]
      | _ => false) = true := by decide

/-! ### Witnesses: for each statement with hypotheses, a state that meets them -/

/-- A command latched, as it is when an instruction runs. -/
def running (r : Regs) (d : Device) (m : Allocator) (c : Command) : State :=
  { start r d m c with fsm := .exec, latched := some c, offered := [] }

/-- The instruction answers a next state of which `p` holds. -/
def execGives (i : Instr) (s : State) (p : State → Bool) : Bool :=
  match exec i s with
  | .next t => p t
  | _ => false

/-- The step answers a next state of which `p` holds. -/
def stepSatisfies (s : State) (p : State → Bool) : Bool :=
  match step s with
  | .next t => p t
  | _ => false

theorem witness_DecodeOfEncodeIsTheInstruction :
    (Instr.putbits 255).wellFormed = true ∧ (Instr.seek .fromEnd).wellFormed = true := by decide

theorem witness_LegalWordIsTheEncodingOfItsInstruction : decode 0x00000FF4 = .legal (.putbits 255) := by decide

theorem witness_LegalExactlyWhenOneRowMatches :
    decode 0x00002007 = .legal (.seek .fromEnd) ∧ rowSeek.matchesWord 0x00003007 = true ∧ whenceField 0x00003007 = 3 := by
  decide

/-- An idle engine with a legal and with an illegal word offered. -/
theorem witness_StepRunsTheDecodedCommand :
    let s := start (openRegs .write 0 8) takesAll {} (cmd 0x0084 1)
    s.resetLine = false ∧ s.fsm = .idle ∧ s.offered = [cmd 0x0084 1] ∧ decode (cmd 0x0084 1).word = .legal (.putbits 8) := by
  decide

theorem witness_IllegalWordAnswersInvalidArgument :
    let s := start (openRegs .write 0 8) takesAll {} (cmd 0x3007 1)
    s.resetLine = false ∧ s.fsm = .idle ∧ s.offered = [cmd 0x3007 1] ∧
      decode (cmd 0x3007 1).word = .illegal .reservedWhence := by decide

/-- TELL waits for its answer and another command is offered. -/
def tellWaiting : State :=
  { start (openRegs .write 0 8) (.scripted {}) {} (cmd 0 0) with fsm := .waitTell, latched := some (cmd 8 0) }

theorem witness_CommandsWaitUntilTheEngineIsIdle :
    tellWaiting.fsm ≠ .idle ∧ stepSatisfies tellWaiting (fun t => t == tellWaiting) = true := by decide

theorem witness_ResponseIsTakenOnceAndFreesTheEngine :
    let s : State := { tellWaiting with fsm := .resp, response := some ⟨.ok, 4⟩ }
    let s' : State := { s with hostReady := false }
    (s.resetLine = false ∧ s.fsm = .resp ∧ s.latched = some (cmd 8 0) ∧ s.response = some ⟨.ok, 4⟩ ∧ s.hostReady = true) ∧
      (s'.resetLine = false ∧ s'.fsm = .resp ∧ s'.latched = some (cmd 8 0) ∧ s'.response = some ⟨.ok, 4⟩ ∧
        s'.hostReady = false) := by decide

theorem witness_ResetDropsTheCommandAndIssuesNothing :
    ({ tellWaiting with resetLine := true } : State).resetLine = true := by decide

theorem witness_UnansweredTransactionHangsTheEngine :
    tellWaiting.inv = true ∧ tellWaiting.resetLine = false ∧ tellWaiting.outstanding = some .portTell ∧
      tellWaiting.answers .portTell = false := by decide

theorem witness_AnsweredTransactionComesFirst :
    let s : State := { tellWaiting with device := .scripted { tells := [.pos 7] } }
    s.inv = true ∧ s.resetLine = false ∧ s.outstanding = some .portTell ∧ s.answers .portTell = true ∧
      stepSatisfies s (fun t => t.fsm == .resp) = true := by decide

/-- The loop clause: PUTBITS waits with 16 bits to come, so two bytes come after the one in flight. -/
theorem witness_AnsweredTransactionComesFirst_loop :
    let s : State :=
      { tellWaiting with fsm := .waitWrite (.putbits 16 0xABCD), device := .scripted { writes := [.ok, .ok, .ok] } }
    s.inv = true ∧ s.resetLine = false ∧ s.outstanding = some (.portWrite 0) ∧ s.answers (.portWrite 0) = true ∧
      stepSatisfies s (fun t => t.traffic == [.portWrite 0 .ok, .portWrite 0xAB .ok, .portWrite 0xCD .ok]) = true := by
  decide

/-- A PUTBITS of 64 bits on a device that has one answer stops at its second write. -/
theorem witness_WaitingDoesNotChangeACommand :
    let s := running (openRegs .write 0 8) (.scripted { writes := [.ok] }) {} (cmd 0x0404 5)
    s.resetLine = false ∧
      execGives (.putbits 64) s (fun t => t.fsm == .waitWrite (.putbits 48 5) && t.fsm != .resp) = true := by decide

theorem witness_EveryStepKeepsTheInvariant :
    let s := start (openRegs .write 0xA0 5) takesAll {} (cmd 0x0404 5)
    s.inv = true ∧ stepSatisfies s (fun t => t.regs == openRegs .write 0xA0 5) = true := by decide

theorem witness_NoFaultFromTheInvariant :
    (start (openRegs .read 0xA0 8) (holds []) {} (cmd 5 0)).inv = true ∧ tellWaiting.inv = true := by decide

/-- OPEN of "f" after power-on, with a block at address 0, which fits whatever `ENTITY_SIZE` is. -/
def opening (ch : Byte) (more : List Command) (q : Script) : State :=
  { State.reset with
    offered := openCmd 0x0001 [ch] 0 0 :: more, device := .scripted { q with opens := [.ok] },
    allocator := { allocs := [.addr 0] } }

/-- The stream that OPEN leaves, its response not yet taken. -/
def opened (m : Mode) (ch : Byte) (more : List Command) (q : Script) : State :=
  { State.reset with
    regs := ⟨true, m, 0, freshCount m, true, false, false, 0⟩, fsm := .resp, latched := some (openCmd 0x0001 [ch] 0 0),
    response := some ⟨.ok, 0⟩, file := some ⟨[0x66], m, []⟩, offered := more, device := .scripted { q with opens := [] },
    traffic := [.alloc Config.installed.workspaceSize (.addr 0), .portOpen [0x66] m [] .ok] }

theorem allowed_at_zero (c : Config) : (AllocAnswer.addr 0).allowed c.workspaceSize = true := by
  simp [AllocAnswer.allowed, Config.workspaceSize, Config.wsAlign]

theorem opened_reachable {m : Mode} {ch : Byte} (h : modeDirection [ch] = some m) (more : List Command) (q : Script) :
    Reachable (opened m ch more q) := by
  have hd : decode 1#32 = .legal (.openFile false) := by decide
  have ha : Allocator.alloc Config.installed.workspaceSize { allocs := [.addr 0] } = some (.addr 0, {}) := by
    simp only [Allocator.alloc, allowed_at_zero, if_true]
  have hs : step (opening ch more q) =
      openAlloc m { opening ch more q with fsm := .exec, latched := some (openCmd 0x0001 [ch] 0 0), offered := more } := by
    simp [step, advance, opening, State.reset, fsmStep, idleStep, State.accept, runLatched, openCmd, hd, exec, execOpen,
      State.operandPath, State.operandMode, h, Regs.reset]
  refine .step (.input (openCmd 0x0001 [ch] 0 0 :: more) true false (.scripted { q with opens := [.ok] })
    { allocs := [.addr 0] } .powerOn) (hs.trans ?_)
  simp only [openAlloc, State.alloc, opening, State.reset, ha]
  rfl

/-- A reachable state with an open Write stream: OPEN after power-on. -/
theorem witness_ContextLawsHoldBetweenCommands_write :
    ∃ s, Reachable s ∧ s.fsm = .resp ∧ s.regs.active = true ∧ s.regs.mode = .write ∧ s.regs.fault = false :=
  ⟨_, opened_reachable (m := .write) (ch := 0x77) rfl [] {}, rfl, rfl, rfl, rfl⟩

/-- A reachable state after end-of-file: OPEN for reading, the response taken, GETBIT. -/
theorem witness_ContextLawsHoldBetweenCommands_eof :
    ∃ s, Reachable s ∧ s.fsm = .resp ∧ s.regs.eofs = true :=
  ⟨_, .step (.step (opened_reachable (m := .read) (ch := 0x72) rfl [cmd 5 0] { reads := [.eof] }) rfl) rfl, rfl, rfl⟩

/-- A reachable state with a fault: OPEN for reading, the response taken, GETBIT. -/
theorem witness_ContextLawsHoldBetweenCommands_fault :
    ∃ s, Reachable s ∧ s.fsm = .resp ∧ s.regs.fault = true :=
  ⟨_, .step (.step (opened_reachable (m := .read) (ch := 0x72) rfl [cmd 5 0] { reads := [.err] }) rfl) rfl, rfl, rfl⟩

/-- The closed clause: power-on itself. -/
theorem witness_ContextLawsHoldBetweenCommands_closed :
    ∃ s, Reachable s ∧ s.fsm = .idle ∧ s.regs.active = false := ⟨_, .powerOn, rfl, rfl⟩

/-- One command of each clause answers a next state. -/
theorem witness_RegistersAreWrittenOnlyByTheirCommands :
    let s := running (openRegs .write 0xA0 5) (.scripted { writes := [.ok], seeks := [.ok], tells := [.pos 1] }) {} (cmd 0 1)
    execGives .putbit s (fun _ => true) = true ∧ execGives (.putbits 8) s (fun _ => true) = true ∧
      execGives .wssize s (fun _ => true) = true ∧ execGives .tell s (fun _ => true) = true ∧
      execGives (.seek .start) s (fun _ => true) = true := by decide

theorem witness_CommandsLeaveTheHostSideAlone :
    execGives (.putbits 8) (running (openRegs .write 0xA0 5) takesAll {} (cmd 0x0084 1)) (fun t => t.fsm == .resp) = true := by
  decide

theorem witness_TransactionsOfEachCommandAreBounded :
    let s := running (openRegs .write 0xA0 5) takesAll {} (cmd 0x0404 1)
    s.regs.betweenCommands = true ∧ execGives (.putbits 64) s (fun t => t.traffic.length == 8) = true := by decide

theorem witness_StatusesOfEachCommand :
    execGives .tell (running Regs.reset (holds []) {} (cmd 8 0))
      (fun t => t.fsm == .resp && t.response == some ⟨.invalidArgument, 0⟩) = true := by decide

theorem witness_EveryErrorHasValueZero :
    let s := start (openRegs .read 0 0) (holds []) {} (cmd 5 0)
    s.response = none ∧ stepSatisfies s (fun t => t.response == some ⟨.endOfStream, 0⟩) = true := by decide

theorem witness_PowerOnValues : ({ tellWaiting with resetLine := true } : State).resetLine = true := by decide

theorem witness_UnreadOperandsAreIgnored :
    sameOperands .tell (cmd 8 0) (cmd 8 9) ∧ sameOperands .putbit (cmd 3 7) { cmd 3 7 with b := 5 } ∧
      execGives .tell (running (openRegs .read 0 0) (.scripted { tells := [.pos 1] }) {} (cmd 8 0))
        (fun t => t.fsm == .resp) = true := ⟨trivial, rfl, by decide⟩

theorem witness_ModeIsFixedWhileOpen :
    let s := start (openRegs .write 0xA0 5) takesAll {} (cmd 0x0084 5)
    s.inv = true ∧ s.regs.active = true ∧ stepSatisfies s (fun t => t.regs.active) = true := by decide

theorem witness_ClosedEngineRejectsStreamCommands :
    (running Regs.reset (holds []) {} (cmd 5 0)).regs.active = false := by decide

theorem witness_WrongModeComesBeforeWidthAndFault :
    let r := openRegs .read 0xC3 4
    let w := openRegs .write 0xA0 4
    (r.active = true ∧ r.mode = .read) ∧ (w.active = true ∧ w.mode = .write) := by decide

theorem witness_OversizedFieldIsRejected :
    let r := openRegs .read 0 0
    let w := openRegs .write 0 8
    r.active = true ∧ w.active = true ∧ 64 < 65 ∧ w.mode = .write ∧ r.mode = .read := by decide

theorem witness_FaultStateRefusesEverythingButClose :
    let r := { openRegs .read 0 0 with fault := true }
    let w := { openRegs .write 0x34 0 with fault := true }
    (r.active = true ∧ r.fault = true ∧ r.mode = .read ∧ 64 ≤ 64) ∧ (w.active = true ∧ w.fault = true ∧ w.mode = .write) := by
  decide

/-- Each clause of OPEN's checks at the boundary of its range: 63 of 64 bytes, and one byte past the address space. -/
theorem witness_OpenChecksInOrder :
    let bad := running Regs.reset (holds []) {} (openCmd 1 [0x61] 0 0)
    let small := running Regs.reset (holds []) {} (openCmd 0x4001 [0x77] 0x1003 63)
    let far := running Regs.reset (holds []) {} (openCmd 0x4001 [0x72] 0xFFFFFFFFFFFFFFC0 65)
    let again := running (openRegs .read 0 0) (holds []) {} (openCmd 1 [0x72] 0 0)
    let absent := running Regs.reset (holds []) {} (cmd 1 0)
    again.regs.active = true ∧
    (absent.regs.active = false ∧ absent.operandPath = none) ∧
    (bad.regs.active = false ∧ bad.operandPath = some [0x66] ∧ bad.operandMode = some [0x61]) ∧
    (small.operandMode = some [0x77] ∧ small.operandB.toNat < small.cfg.workspaceSize) ∧
    (far.operandMode = some [0x72] ∧ far.cfg.workspaceSize ≤ far.operandB.toNat ∧
      2 ^ 64 < far.operandA.toNat + far.operandB.toNat) := by decide

theorem witness_OpenWithSuppliedWorkspaceSucceeds :
    let s := running Regs.reset (.scripted { opens := [.ok] }) {} (openCmd 0x4001 [0x77, 0x62] 0xFFFFFFFFFFFFFFC0 64)
    s.regs.active = false ∧ s.operandPath = some [0x66] ∧ s.operandMode = some [0x77, 0x62] ∧
      s.cfg.workspaceSize ≤ s.operandB.toNat ∧ s.operandA.toNat + s.operandB.toNat ≤ 2 ^ 64 ∧
      s.device.openFile [0x66] .write = some (.ok, .scripted {}) := by decide

theorem witness_OpenWithAllocatedWorkspaceSucceeds :
    let s := running Regs.reset (.scripted { opens := [.ok] }) { allocs := [.addr 0x2008] } (openCmd 1 [0x72] 0 0)
    s.regs.active = false ∧ s.operandPath = some [0x66] ∧ s.operandMode = some [0x72] ∧
      s.allocator.alloc s.cfg.workspaceSize = some (.addr 0x2008, {}) ∧ s.device.openFile [0x66] .read = some (.ok, .scripted {}) := by decide

theorem witness_FailedOpenFreesWhatItAllocated :
    let s := running Regs.reset (.scripted { opens := [.err] }) { allocs := [.addr 0x2008], frees := 1 }
      (openCmd 1 [0x72] 0x1000 64)
    s.regs.active = false ∧ s.operandPath = some [0x66] ∧ s.operandMode = some [0x72] ∧
      (s.allocator.alloc s.cfg.workspaceSize = some (.addr 0x2008, { frees := 1 }) ∧
        s.device.openFile [0x66] .read = some (.err, .scripted {}) ∧
        ({ frees := 1 } : Allocator).free = some {}) ∧
      (s.cfg.workspaceSize ≤ s.operandB.toNat ∧ s.operandA.toNat + s.operandB.toNat ≤ 2 ^ 64) ∧
      ({ allocs := [.fail] } : Allocator).alloc s.cfg.workspaceSize = some (.fail, {}) := by decide

theorem witness_HandleIsTheFirstAlignedPlace :
    (0xFFFFFFFFFFFFFFC0 : Word64).toNat + (⟨48⟩ : Config).workspaceSize ≤ 2 ^ 64 := by decide

theorem witness_OpenedEntityLiesInsideTheAddressSpace :
    execGives (.openFile false)
      (running Regs.reset (.scripted { opens := [.ok] }) { allocs := [.addr 0xFFFFFFFFFFFFFFC0] } (openCmd 1 [0x72] 0 0))
      (fun t => t.fsm == .resp && t.response == some ⟨.ok, 0xFFFFFFFFFFFFFFC0⟩) = true ∧
    execGives (.openFile true)
      (running Regs.reset (.scripted { opens := [.ok] }) {} (openCmd 0x4001 [0x72] 0xFFFFFFFFFFFFFFC0 64))
      (fun t => t.fsm == .resp && t.response == some ⟨.ok, 0xFFFFFFFFFFFFFFC0⟩) = true := by decide

theorem witness_CloseOfAClosedEngineIsANoOp : (running Regs.reset (holds []) {} (cmd 2 0)).regs.active = false := by decide

/-- CLOSE with a flush and an owned workspace, and CLOSE with neither. -/
theorem witness_CloseFlushesReleasesAndResets :
    let s := running (openRegs .write 0xC0 6) (.scripted { writes := [.err], closes := [.err] }) { frees := 1 } (cmd 2 0)
    let u := running { openRegs .write 0 8 with owns := false } (.scripted { closes := [.ok] }) {} (cmd 2 0)
    (s.regs.active = true ∧ (s.regs.mode = .write ∧ s.regs.fault = false ∧ s.regs.cnt ≠ 8) ∧
      s.device.write s.regs.buf = some (.err, .scripted { closes := [.err] }) ∧
      (Device.scripted { closes := [.err] }).close = some (.err, .scripted {}) ∧ s.regs.owns = true ∧
      s.allocator.free = some {}) ∧
    (u.regs.active = true ∧ ¬(u.regs.mode = .write ∧ u.regs.fault = false ∧ u.regs.cnt ≠ 8) ∧
      u.device.close = some (.ok, .scripted {}) ∧ u.regs.owns = false) := by decide

theorem witness_FlushIsAPutbitsOfZeroBits :
    let s := running (openRegs .write 0xFE 1) (.scripted { writes := [.ok] }) {} (cmd 0x0014 0)
    s.regs.active = true ∧ s.regs.mode = .write ∧ s.regs.fault = false ∧ 1 ≤ s.regs.cnt.toNat ∧ s.regs.cnt.toNat ≤ 7 ∧
      s.operandA = 0 ∧ s.device.write s.regs.buf = some (.ok, .scripted {}) ∧
      s.regs.buf.toNat % 2 ^ s.regs.cnt.toNat = 0 := by decide

theorem witness_PutbitPlacesTheBit :
    let r := openRegs .write 0xFC 2
    r.active = true ∧ r.mode = .write ∧ r.fault = false ∧ 2 ≤ r.cnt.toNat ∧ r.cnt.toNat ≤ 8 := by decide

theorem witness_PutbitEmitsACompletedByte :
    let s := running (openRegs .write 0xAA 1) (.scripted { writes := [.ok] }) {} (cmd 3 1)
    let u := running (openRegs .write 0xAA 1) (.scripted { writes := [.err] }) {} (cmd 3 0)
    (s.regs.active = true ∧ s.regs.mode = .write ∧ s.regs.fault = false ∧ s.regs.cnt = 1 ∧
      s.device.write (s.regs.buf ||| (if s.operandA = 0 then 0 else 1)) = some (.ok, .scripted {})) ∧
    u.device.write (u.regs.buf ||| (if u.operandA = 0 then 0 else 1)) = some (.err, .scripted {}) := by decide

/-- A device with `n` positive write answers takes the next `n` writes. -/
theorem scripted_acceptsWrites : ∀ n, (Device.scripted { writes := List.replicate n .ok }).acceptsWrites n
  | 0 => trivial
  | n + 1 => fun _ => ⟨_, rfl, scripted_acceptsWrites n⟩

theorem scripted_answersWrites : ∀ n, (Device.scripted { writes := List.replicate n .err }).answersWrites n
  | 0 => trivial
  | n + 1 => fun _ => ⟨_, _, rfl, scripted_answersWrites n⟩

theorem witness_PutbitsAppendsTheFieldToTheStream :
    let s := running (openRegs .write 0xA0 5) takesAll {} (cmd 0x0404 1)
    (s.regs.active = true ∧ s.regs.mode = .write ∧ s.regs.fault = false ∧ 1 ≤ s.regs.cnt.toNat ∧ s.regs.cnt.toNat ≤ 8 ∧
      s.regs.buf.toNat % 2 ^ s.regs.cnt.toNat = 0 ∧ 64 ≤ 64) ∧ s.device.acceptsWrites (emitsMade 64 s.regs.cnt.toNat) :=
  ⟨by decide, scripted_acceptsWrites 8⟩

/-- Vector W11 again: the write of 0xBE is taken and that of 0xEF fails. -/
theorem witness_FailedEmitEndsPutbits :
    let s := running (openRegs .write 0 8) (.scripted { writes := [.ok, .err] }) {} (cmd 0x0104 0xBEEF)
    s.regs.active = true ∧ s.regs.mode = .write ∧ s.regs.fault = false ∧ 1 ≤ s.regs.cnt.toNat ∧ s.regs.cnt.toNat ≤ 8 ∧
      s.regs.buf.toNat % 2 ^ s.regs.cnt.toNat = 0 ∧ 16 ≤ 64 ∧
      streamBits ([0xBE] ++ [0xEF]) = s.regs.pendingBits ++ bitsOf 16 s.operandA.toNat ∧
      s.device.takes [0xBE] = some (.scripted { writes := [.err] }) ∧
      (Device.scripted { writes := [.err] }).write 0xEF = some (.err, .scripted {}) := by decide

theorem witness_PutbitsEqualsItsPutbits :
    let s := running (openRegs .write 0xA0 5) (.scripted { writes := List.replicate 8 .err }) {} (cmd 0x0404 1)
    (s.regs.active = true ∧ s.regs.mode = .write ∧ s.regs.fault = false ∧ 1 ≤ s.regs.cnt.toNat ∧ s.regs.cnt.toNat ≤ 8 ∧
      64 ≤ 64) ∧ s.device.answersWrites (emitsMade 64 s.regs.cnt.toNat) :=
  ⟨by decide, scripted_answersWrites 8⟩

/-- Vector W6: `0xFFF5` and `0x5` agree in their low four bits. -/
theorem witness_PutbitsUsesOnlyTheLowBits :
    (cmd 0x0044 0xFFF5).a.toNat % 2 ^ 4 = (0x5 : Word64).toNat % 2 ^ 4 ∧
      execGives (.putbits 4) (running (openRegs .write 0 8) takesAll {} (cmd 0x0044 0xFFF5))
        (fun t => t.regs == openRegs .write 0x50 4) = true := by decide

theorem witness_GetbitTakesTheNextBufferedBit :
    let r := openRegs .read 0xBA 8
    r.active = true ∧ r.mode = .read ∧ r.fault = false ∧ 1 ≤ r.cnt.toNat ∧ r.cnt.toNat ≤ 8 := by decide

theorem witness_GetbitFetchesWhenEmpty :
    let r := openRegs .read 0xBA 0
    r.active = true ∧ r.mode = .read ∧ r.fault = false ∧ r.cnt = 0 ∧ r.eofs = false ∧
      (holds [7]).read = some (.byte 7, holds []) ∧ (holds []).read = some (.eof, .scripted {}) ∧
      (Device.scripted { reads := [.err] }).read = some (.err, .scripted {}) := by decide

theorem witness_EndOfFileIsSticky :
    let r := { openRegs .read 0xBA 0 with eofs := true }
    r.active = true ∧ r.mode = .read ∧ r.fault = false ∧ r.cnt = 0 ∧ r.eofs = true ∧ 0 ≤ 64 := by decide

/-- Vector G7 and, with no fetch, vector G6. -/
theorem witness_GetbitsTakesTheFieldFromTheStream :
    let r := openRegs .read 0xBA 4
    (r.active = true ∧ r.mode = .read ∧ r.fault = false ∧ r.eofs = false ∧ r.cnt.toNat ≤ 8 ∧ 12 ≤ 64 ∧
      [(0xBC : Byte)].length = fetchesNeeded 12 r.cnt.toNat ∧ (holds [0xBC]).delivers [0xBC] = some (holds [])) ∧
    (([] : Bytes).length = fetchesNeeded 4 r.cnt.toNat ∧ (holds []).delivers [] = some (holds [])) := by decide

/-- Vector G9. -/
theorem witness_ShortReadAnswersOkWithZeros :
    let r := openRegs .read 0xBA 3
    r.active = true ∧ r.mode = .read ∧ r.fault = false ∧ r.eofs = false ∧ r.cnt.toNat ≤ 8 ∧ 20 ≤ 64 ∧
      [(0xBC : Byte), 0x0F].length < fetchesNeeded 20 r.cnt.toNat ∧
      (holds [0xBC, 0x0F]).delivers [0xBC, 0x0F] = some (holds []) ∧ (holds []).read = some (.eof, .scripted {}) := by decide

/-- Vector G14. -/
theorem witness_FailedFetchEndsGetbits :
    let r := openRegs .read 0xBA 4
    r.active = true ∧ r.mode = .read ∧ r.fault = false ∧ r.eofs = false ∧ r.cnt.toNat ≤ 8 ∧ 12 ≤ 64 ∧
      ([] : Bytes).length < fetchesNeeded 12 r.cnt.toNat ∧
      (Device.scripted { reads := [.err] }).delivers [] = some (.scripted { reads := [.err] }) ∧
      (Device.scripted { reads := [.err] }).read = some (.err, .scripted {}) := by decide

/-- Vector G7. -/
theorem witness_GetbitsEqualsItsGetbits :
    let r := openRegs .read 0xBA 4
    r.active = true ∧ r.mode = .read ∧ r.fault = false ∧ r.eofs = false ∧ r.cnt.toNat ≤ 8 ∧ 12 ≤ 64 ∧
      [(0xBC : Byte)].length = fetchesNeeded 12 r.cnt.toNat ∧ (holds [0xBC]).delivers [0xBC] = some (holds []) := by decide

theorem witness_SeekDiscardsAndRepositions :
    let s := running (openRegs .write 0xE0 5) (.scripted { seeks := [.eof] }) {} (cmd 0x1007 0xFFFFFFFFFFFFFFFB)
    s.regs.active = true ∧ s.regs.fault = false ∧
      s.device.seek s.operandA.toInt .current = some (.eof, .scripted {}) := by decide

theorem witness_SeekThenCloseLosesThePartialByte :
    let s := running (openRegs .write 0xB0 3) (.scripted { seeks := [.ok], closes := [.ok] }) { frees := 1 } (cmd 0x1007 0)
    s.regs.active = true ∧ s.regs.mode = .write ∧ s.regs.fault = false ∧
      s.device.seek s.operandA.toInt .current = some (.ok, .scripted { closes := [.ok] }) ∧
      (Device.scripted { closes := [.ok] }).close = some (.ok, .scripted {}) ∧ s.regs.owns = true ∧
      s.allocator.free = some {} := by decide

theorem witness_TellAnswersTheDevicePosition :
    let s := running (openRegs .write 0xB0 3) (.scripted { tells := [.pos 9, .err] }) {} (cmd 8 0)
    s.regs.active = true ∧ s.regs.fault = false ∧ s.device.tell = some (.pos 9, .scripted { tells := [.err] }) ∧
      (Device.scripted { tells := [.err] }).tell = some (.err, .scripted {}) := by decide

/-- The reference device with one file open at position 0. -/
def oneFile (content : Bytes) : RefDevice := ⟨[([0x66], content)], some [0x66], 0⟩

theorem witness_TellCountsTheBytesEmitted :
    let r := openRegs .write 0 8
    let f := oneFile []
    let fields : List (Nat × Word64) := [(12, 0xABC), (64, 3)]
    f.current = some [0x66] ∧ lookupFile [0x66] f.files = some [] ∧ f.pos = 0 ∧ r.active = true ∧ r.mode = .write ∧
      r.fault = false ∧ r.cnt = 8 ∧ r.buf = 0 ∧ (∀ p ∈ fields, p.1 ≤ 64) ∧ (fields.map Prod.fst).sum / 8 < 2 ^ 64 := by decide

theorem witness_TellCountsTheBytesFetched :
    let r := openRegs .read 0 0
    let f := oneFile [1, 2]
    let widths : List Nat := [3, 0, 13]
    f.current = some [0x66] ∧ lookupFile [0x66] f.files = some [1, 2] ∧ f.pos = 0 ∧ r.active = true ∧ r.mode = .read ∧
      r.fault = false ∧ r.eofs = false ∧ r.cnt = 0 ∧ (∀ w ∈ widths, w ≤ 64) ∧ widths.sum ≤ 8 * [1, 2].length ∧
      (widths.sum + 7) / 8 < 2 ^ 64 := by decide

theorem witness_EndOfStreamAfterTheLastBit :
    let r := openRegs .read 0 0
    let f := oneFile [0xC3, 0x5A]
    f.current = some [0x66] ∧ lookupFile [0x66] f.files = some [0xC3, 0x5A] ∧ f.pos = 0 ∧ r.active = true ∧
      r.mode = .read ∧ r.fault = false ∧ r.eofs = false ∧ r.cnt = 0 := by decide

/-- The state before the round trip of two fields. -/
def beforeRoundTrip : State :=
  { start Regs.reset (.reference ⟨[], none, 0⟩) { allocs := [.addr 0x2000, .addr 0x3000], frees := 2 } (cmd 0 0) with
    offered := roundTripProgram [0x66] [(3, 5), (64, 9)] }

theorem witness_RoundTripGivesTheFieldsBack :
    let s := beforeRoundTrip
    s.regs = Regs.reset ∧ s.fsm = .idle ∧ s.latched = none ∧ s.response = none ∧ s.exchanges = [] ∧ s.resetLine = false ∧
      s.hostReady = true ∧ s.device = .reference ⟨[], none, 0⟩ ∧
      s.allocator = { allocs := [.addr 0x2000, .addr 0x3000], frees := 2 } ∧
      (0x2000 : Word64).toNat + s.cfg.workspaceSize ≤ 2 ^ 64 ∧ (0x3000 : Word64).toNat + s.cfg.workspaceSize ≤ 2 ^ 64 ∧
      s.offered = roundTripProgram [0x66] [(3, 5), (64, 9)] ∧ ∀ p ∈ [((3 : Nat), (5 : Word64)), (64, 9)], p.1 ≤ 64 := by
  decide

end Sys2Proof.Tests
end

section
/-! SUPPORT. What the stages that end a command can do, and what each command's checks let through: said once per stage
and once per instruction. -/

namespace Sys2Proof.Machine

open Sys2Proof

/-! ### The stages after which a command is over -/

theorem putbitEmit_cases (s : State) :
    (s.device.write s.regs.buf = none ∧ putbitEmit s = .next (s.park (.waitWrite .putbit))) ∨
    (∃ d, s.device.write s.regs.buf = some (.err, d) ∧ putbitEmit s =
      .next (((s.transacted d (.portWrite s.regs.buf .err)).setRegs s.regs.emitFailed).respond .ioError 0)) ∨
    (∃ d, s.device.write s.regs.buf = some (.ok, d) ∧ putbitEmit s =
      .next (((s.transacted d (.portWrite s.regs.buf .ok)).setRegs s.regs.emitted).respond .ok 0)) := by
  unfold putbitEmit State.portWrite
  rcases s.device.write s.regs.buf with _ | ⟨_ | _, d⟩
  · exact .inl ⟨rfl, rfl⟩
  · exact .inr (.inr ⟨d, rfl, rfl⟩)
  · exact .inr (.inl ⟨d, rfl, rfl⟩)

/-- While `EOFS = 1` a GETBIT with nothing buffered issues nothing (R48). -/
theorem getbitFetch_of_eofs {s : State} (he : s.regs.eofs = true) :
    getbitFetch s = .next (s.respond .endOfStream 0) := by
  simp [getbitFetch, State.fetch, he]

theorem getbitFetch_cases {s : State} (he : s.regs.eofs = false) :
    (s.device.read = none ∧ getbitFetch s = .next (s.park (.waitRead .getbit))) ∨
    (∃ d, s.device.read = some (.eof, d) ∧ getbitFetch s =
      .next (((s.transacted d (.portRead .eof)).setRegs s.regs.noteEof).respond .endOfStream 0)) ∨
    (∃ d, s.device.read = some (.err, d) ∧ getbitFetch s =
      .next (((s.transacted d (.portRead .err)).setRegs s.regs.fetchFailed).respond .ioError 0)) ∨
    (∃ b d, s.device.read = some (.byte b, d) ∧ getbitFetch s =
      .next (((s.transacted d (.portRead (.byte b))).setRegs (s.regs.load b 7)).respond .ok
        ((s.regs.load b 7).bitAt 7))) := by
  unfold getbitFetch State.fetch State.portRead
  rw [he]
  rcases s.device.read with _ | ⟨b | _ | _, d⟩
  · exact .inl ⟨rfl, rfl⟩
  · exact .inr (.inr (.inr ⟨b, d, rfl, rfl⟩))
  · exact .inr (.inl ⟨d, rfl, rfl⟩)
  · exact .inr (.inr (.inl ⟨d, rfl, rfl⟩))

/-- While `EOFS = 1` a GETBITS that runs out of buffered bits answers what it has (R48, R133). -/
theorem getbitsFetch_of_eofs {loop : State → Outcome} {w : Nat} {res : Word64} {s : State} (he : s.regs.eofs = true) :
    getbitsFetch loop w res s = .next (s.respond .ok res) := by
  simp [getbitsFetch, State.fetch, he]

theorem seekPort_cases (wh : Whence) (s : State) :
    (s.device.seek (operandOffset s.operandA) wh = none ∧ seekPort wh s = .next (s.park (.waitSeek wh))) ∨
    (∃ d, s.device.seek (operandOffset s.operandA) wh = some (.ok, d) ∧ seekPort wh s =
      .next (((s.transacted d (.portSeek (operandOffset s.operandA) wh .ok)).setRegs s.regs.clearEof).respond .ok 0)) ∨
    (∃ r d st, s.device.seek (operandOffset s.operandA) wh = some (r, d) ∧ seekPort wh s =
      .next ((s.transacted d (.portSeek (operandOffset s.operandA) wh r)).respond st 0)) := by
  unfold seekPort State.portSeek
  rcases s.device.seek (operandOffset s.operandA) wh with _ | ⟨_ | _ | _, d⟩
  · exact .inl ⟨rfl, rfl⟩
  · exact .inr (.inl ⟨d, rfl, rfl⟩)
  · exact .inr (.inr ⟨.eof, d, .endOfStream, rfl, rfl⟩)
  · exact .inr (.inr ⟨.err, d, .ioError, rfl, rfl⟩)

theorem tellPort_cases (s : State) :
    (s.device.tell = none ∧ tellPort s = .next (s.park .waitTell)) ∨
    (∃ r d st v, s.device.tell = some (r, d) ∧ tellPort s =
      .next ((s.transacted d (.portTell r)).respond st v)) := by
  unfold tellPort State.portTell
  rcases s.device.tell with _ | ⟨n | _, d⟩
  · exact .inl ⟨rfl, rfl⟩
  · exact .inr ⟨.pos n, d, .ok, n, rfl, rfl⟩
  · exact .inr ⟨.err, d, .ioError, 0, rfl, rfl⟩

theorem openFree_cases (base : Word64) (s : State) :
    (s.allocator.free = none ∧ openFree base s = .next (s.park (.waitFree (.failedOpen base)))) ∨
    (∃ m, s.allocator.free = some m ∧ openFree base s =
      .next ((s.allocated m (.free base)).respond .fileOpenFailed 0)) := by
  unfold openFree State.free
  rcases s.allocator.free with _ | m
  · exact .inl ⟨rfl, rfl⟩
  · exact .inr ⟨m, rfl, rfl⟩

theorem closeFree_cases (s : State) :
    (s.allocator.free = none ∧ closeFree s = .next (s.park (.waitFree .close))) ∨
    (∃ m, s.allocator.free = some m ∧ closeFree s =
      .next (((s.allocated m (.free s.regs.wsbase)).setRegs Regs.reset).respond .ok 0)) := by
  unfold closeFree State.free
  rcases s.allocator.free with _ | m
  · exact .inl ⟨rfl, rfl⟩
  · exact .inr ⟨m, rfl, rfl⟩

/-! ### The stages that lead to another -/

theorem closePort_of_unanswered {s : State} (hd : s.device.close = none) :
    closePort s = .next (s.park .waitClose) := by
  simp [closePort, State.portClose, hd]

theorem closePort_of_answer {s : State} {r : IoAnswer} {d : Device} (hd : s.device.close = some (r, d)) :
    closePort s =
      if s.regs.owns then closeFree ((s.transacted d (.portClose r)).bind none)
      else .next ((((s.transacted d (.portClose r)).bind none).setRegs Regs.reset).respond .ok 0) := by
  simp only [closePort, State.portClose, hd]
  rfl

theorem closeFlush_of_answer {s : State} {r : IoAnswer} {d : Device} (hd : s.device.write s.regs.buf = some (r, d)) :
    closeFlush s = closePort (s.transacted d (.portWrite s.regs.buf r)) := by
  simp [closeFlush, State.portWrite, hd]

theorem openPort_of_unanswered {dir : Mode} {owns : Bool} {base : Word64} {s : State}
    (hd : s.device.openFile s.openPath dir = none) :
    openPort dir owns base s = .next (s.park (.waitOpen dir owns base)) := by
  simp [openPort, State.portOpen, hd]

theorem openPort_of_ok {dir : Mode} {owns : Bool} {base : Word64} {s : State} {d : Device}
    (hd : s.device.openFile s.openPath dir = some (.ok, d)) :
    openPort dir owns base s =
      .next ((((s.transacted d (.portOpen s.openPath dir s.openRest .ok)).bind
        (some ⟨s.openPath, dir, s.openRest⟩)).setRegs (Regs.opened dir owns base)).respond .ok
          (placementHandle base)) := by
  simp [openPort, State.portOpen, bindingAfterOpen, hd]

theorem openPort_of_err {dir : Mode} {owns : Bool} {base : Word64} {s : State} {d : Device}
    (hd : s.device.openFile s.openPath dir = some (.err, d)) :
    openPort dir owns base s =
      if owns then openFree base ((s.transacted d (.portOpen s.openPath dir s.openRest .err)).bind none)
      else
        .next (((s.transacted d (.portOpen s.openPath dir s.openRest .err)).bind none).respond .fileOpenFailed 0) := by
  simp [openPort, State.portOpen, bindingAfterOpen, hd]

theorem openAlloc_of_unanswered {dir : Mode} {s : State} (hm : s.allocator.alloc s.cfg.workspaceSize = none) :
    openAlloc dir s = .next (s.park (.waitAlloc dir)) := by
  simp [openAlloc, State.alloc, hm]

theorem openAlloc_of_fail {dir : Mode} {s : State} {m : Allocator}
    (hm : s.allocator.alloc s.cfg.workspaceSize = some (.fail, m)) :
    openAlloc dir s = .next ((s.allocated m (.alloc s.cfg.workspaceSize .fail)).respond .allocationFailed 0) := by
  simp [openAlloc, State.alloc, hm]

theorem openAlloc_of_addr {dir : Mode} {s : State} {a : Word64} {m : Allocator}
    (hm : s.allocator.alloc s.cfg.workspaceSize = some (.addr a, m)) :
    openAlloc dir s = openPort dir true a (s.allocated m (.alloc s.cfg.workspaceSize (.addr a))) := by
  simp [openAlloc, State.alloc, hm]

/-! ### The checks of each instruction (R172)

Each `_cases` lemma says that a check answers at once or that the command's conditions hold; under these conditions the
equation beside it says which stage runs. -/

/-- The stream is open in the mode, and no transfer has failed: what PUTBIT, PUTBITS, GETBIT and GETBITS ask for. -/
structure Regs.Usable (r : Regs) (m : Mode) : Prop where
  active : r.active = true
  mode : r.mode = m
  fault : r.fault = false

theorem execOpen_of_checks {ws : Bool} {s : State} {path m : Bytes} {dir : Mode} (ha : s.regs.active = false)
    (hp : s.operandPath = some path) (hm : s.operandMode = some m) (hd : modeDirection m = some dir) :
    execOpen ws s = if ws then openSupplied dir s else openAlloc dir s := by
  simp [execOpen, ha, hp, hm, hd]

theorem execOpen_cases (ws : Bool) (s : State) :
    (∃ st, execOpen ws s = .next (s.respond st 0)) ∨
    (s.regs.active = false ∧ ∃ path m dir, s.operandPath = some path ∧ s.operandMode = some m ∧
      modeDirection m = some dir) := by
  cases ha : s.regs.active with
  | true => exact .inl ⟨.invalidArgument, by simp [execOpen, ha]⟩
  | false =>
    rcases hp : s.operandPath with _ | path
    · exact .inl ⟨.invalidArgument, by simp [execOpen, ha, hp]⟩
    rcases hm : s.operandMode with _ | m
    · exact .inl ⟨.invalidArgument, by simp [execOpen, ha, hp, hm]⟩
    rcases hd : modeDirection m with _ | dir
    · exact .inl ⟨.invalidArgument, by simp [execOpen, ha, hp, hm, hd]⟩
    exact .inr ⟨rfl, path, m, dir, rfl, rfl, hd⟩

theorem execOpen_of_active (ws : Bool) {s : State} (ha : s.regs.active = true) :
    execOpen ws s = .next (s.respond .invalidArgument 0) := by
  simp [execOpen, ha]

theorem openSupplied_of_checks {dir : Mode} {s : State} (hB : s.cfg.workspaceSize ≤ s.operandB.toNat)
    (hA : s.operandA.toNat + s.operandB.toNat ≤ 2 ^ 64) :
    openSupplied dir s = openPort dir false s.operandA s := by
  rw [openSupplied, if_neg (by omega), if_neg (by omega)]

theorem openSupplied_cases (dir : Mode) (s : State) :
    (∃ st, openSupplied dir s = .next (s.respond st 0)) ∨
    (s.cfg.workspaceSize ≤ s.operandB.toNat ∧ s.operandA.toNat + s.operandB.toNat ≤ 2 ^ 64) := by
  by_cases hB : s.operandB.toNat < s.cfg.workspaceSize
  · exact .inl ⟨.insufficientWorkspace, by rw [openSupplied, if_pos hB, raise_eq]⟩
  by_cases hA : 2 ^ 64 < s.operandA.toNat + s.operandB.toNat
  · exact .inl ⟨.invalidArgument, by rw [openSupplied, if_neg hB, if_pos hA, raise_eq]⟩
  exact .inr ⟨by omega, by omega⟩

theorem execClose_of_closed {s : State} (ha : s.regs.active = false) : execClose s = .next (s.respond .ok 0) := by
  simp [execClose, ha]

theorem execClose_of_open {s : State} (ha : s.regs.active = true) :
    execClose s = if s.regs.flushPending then closeFlush s else closePort s := by
  simp [execClose, ha]

theorem execPutbit_of_usable {s : State} (hu : s.regs.Usable .write) :
    execPutbit s = if s.regs.cnt = 0 then .fault .countUnderflow else putbitPlace s := by
  simp [execPutbit, hu.active, hu.mode, hu.fault]

theorem execPutbit_cases (s : State) :
    (∃ st, execPutbit s = .next (s.respond st 0)) ∨ s.regs.Usable .write := by
  cases ha : s.regs.active with
  | false => exact .inl ⟨.invalidArgument, by simp [execPutbit, ha]⟩
  | true =>
    cases hm : s.regs.mode with
    | read => exact .inl ⟨.wrongMode, by simp [execPutbit, ha, hm]⟩
    | write =>
      cases hf : s.regs.fault with
      | true => exact .inl ⟨.ioError, by simp [execPutbit, ha, hm, hf]⟩
      | false => exact .inr ⟨ha, hm, hf⟩

theorem putbitPlace_eq (s : State) :
    putbitPlace s =
      if (s.regs.placeBit (operandBit s.operandA)).cnt = 0 then
        putbitEmit (s.setRegs (s.regs.placeBit (operandBit s.operandA)))
      else .next ((s.setRegs (s.regs.placeBit (operandBit s.operandA))).respond .ok 0) := rfl

theorem execPutbits_of_usable {w : Nat} {s : State} (hu : s.regs.Usable .write) (hw : w ≤ 64) :
    execPutbits w s = putbitsLoop (loopFuel w) w (operandField w s.operandA) s := by
  simp [execPutbits, Config.maxField, hu.active, hu.mode, hu.fault, Nat.not_lt.2 hw]

theorem execPutbits_cases (w : Nat) (s : State) :
    (∃ st, execPutbits w s = .next (s.respond st 0)) ∨ (s.regs.Usable .write ∧ w ≤ 64) := by
  cases ha : s.regs.active with
  | false => exact .inl ⟨.invalidArgument, by simp [execPutbits, ha]⟩
  | true =>
    cases hm : s.regs.mode with
    | read => exact .inl ⟨.wrongMode, by simp [execPutbits, ha, hm]⟩
    | write =>
      by_cases hw : 64 < w
      · exact .inl ⟨.invalidArgument, by simp [execPutbits, Config.maxField, ha, hm, hw]⟩
      cases hf : s.regs.fault with
      | true => exact .inl ⟨.ioError, by simp [execPutbits, Config.maxField, ha, hm, hw, hf]⟩
      | false => exact .inr ⟨⟨ha, hm, hf⟩, by omega⟩

theorem execGetbit_of_usable {s : State} (hu : s.regs.Usable .read) :
    execGetbit s =
      if s.regs.cnt = 0 then getbitFetch s
      else .next ((s.setRegs (s.regs.consume 1)).respond .ok
        ((s.regs.consume 1).bitAt (s.regs.consume 1).cnt.toNat)) := by
  simp [execGetbit, hu.active, hu.mode, hu.fault]

theorem execGetbit_cases (s : State) :
    (∃ st, execGetbit s = .next (s.respond st 0)) ∨ s.regs.Usable .read := by
  cases ha : s.regs.active with
  | false => exact .inl ⟨.invalidArgument, by simp [execGetbit, ha]⟩
  | true =>
    cases hm : s.regs.mode with
    | write => exact .inl ⟨.wrongMode, by simp [execGetbit, ha, hm]⟩
    | read =>
      cases hf : s.regs.fault with
      | true => exact .inl ⟨.ioError, by simp [execGetbit, ha, hm, hf]⟩
      | false => exact .inr ⟨ha, hm, hf⟩

theorem execGetbits_of_usable {w : Nat} {s : State} (hu : s.regs.Usable .read) (hw : w ≤ 64)
    (he : s.regs.eofs = true → s.regs.cnt ≠ 0) :
    execGetbits w s = getbitsLoop (loopFuel w) w 0 s := by
  simp only [execGetbits, Config.maxField, hu.active, hu.mode, hu.fault, Nat.not_lt.2 hw, not_and.2 he]
  rfl

theorem execGetbits_cases (w : Nat) (s : State) :
    (∃ st, execGetbits w s = .next (s.respond st 0)) ∨
    (s.regs.Usable .read ∧ w ≤ 64 ∧ (s.regs.eofs = true → s.regs.cnt ≠ 0)) := by
  cases ha : s.regs.active with
  | false => exact .inl ⟨.invalidArgument, by simp [execGetbits, ha]⟩
  | true =>
    cases hm : s.regs.mode with
    | write => exact .inl ⟨.wrongMode, by simp [execGetbits, ha, hm]⟩
    | read =>
      by_cases hw : 64 < w
      · exact .inl ⟨.invalidArgument, by simp [execGetbits, Config.maxField, ha, hm, hw]⟩
      cases hf : s.regs.fault with
      | true => exact .inl ⟨.ioError, by simp [execGetbits, Config.maxField, ha, hm, hw, hf]⟩
      | false =>
        by_cases he : s.regs.eofs = true ∧ s.regs.cnt = 0
        · exact .inl ⟨.endOfStream, by simp [execGetbits, Config.maxField, ha, hm, hw, hf, he]⟩
        exact .inr ⟨⟨ha, hm, hf⟩, by omega, not_and.1 he⟩

theorem execSeek_of_unfaulted {wh : Whence} {s : State} (ha : s.regs.active = true) (hf : s.regs.fault = false) :
    execSeek wh s = seekPort wh (s.setRegs s.regs.discard) := by
  simp [execSeek, ha, hf]

theorem execSeek_cases (wh : Whence) (s : State) :
    (∃ st, execSeek wh s = .next (s.respond st 0)) ∨ (s.regs.active = true ∧ s.regs.fault = false) := by
  cases ha : s.regs.active with
  | false => exact .inl ⟨.invalidArgument, by simp [execSeek, ha]⟩
  | true =>
    cases hf : s.regs.fault with
    | true => exact .inl ⟨.ioError, by simp [execSeek, ha, hf]⟩
    | false => exact .inr ⟨rfl, rfl⟩

theorem execTell_of_unfaulted {s : State} (ha : s.regs.active = true) (hf : s.regs.fault = false) :
    execTell s = tellPort s := by
  simp [execTell, ha, hf]

theorem execTell_cases (s : State) :
    (∃ st, execTell s = .next (s.respond st 0)) ∨ (s.regs.active = true ∧ s.regs.fault = false) := by
  cases ha : s.regs.active with
  | false => exact .inl ⟨.invalidArgument, by simp [execTell, ha]⟩
  | true =>
    cases hf : s.regs.fault with
    | true => exact .inl ⟨.ioError, by simp [execTell, ha, hf]⟩
    | false => exact .inr ⟨rfl, rfl⟩

end Sys2Proof.Machine
end

section
/-! SUPPORT. The invariant: the laws of R32 and the parts of `State.inv` as propositions, what each register update does
to the laws, and that every stage, every instruction and every step keeps the invariant. A stage is entered with the
invariant of the `WAIT` state it leaves when there is no answer, so one lemma serves the command and its continuation
(R34). -/

namespace Sys2Proof.Machine

open Sys2Proof

/-! ### The laws of R32 -/

/-- The five laws of R32, spelled out. -/
theorem Regs.betweenCommands_iff (r : Regs) :
    r.betweenCommands = true ↔
      r.cnt.toNat ≤ 8 ∧
      (r.active = true → r.mode = .write → r.fault = false → 1 ≤ r.cnt.toNat ∧ r.buf.toNat % 2 ^ r.cnt.toNat = 0) ∧
      (r.eofs = true → r.active = true ∧ r.mode = .read ∧ r.cnt = 0) ∧
      (r.active = false → r = Regs.reset) ∧
      (r.fault = true → r.active = true) := by
  simp only [Regs.betweenCommands, Regs.countInRange, Regs.unfilledBitsZero, Regs.eofOnlyWhenDrained,
    Regs.closedIsReset, Regs.faultOnlyWhenActive]
  cases r.active <;> cases r.mode <;> cases r.fault <;> cases r.eofs <;> simp

theorem Regs.streaming_iff (r : Regs) (m : Mode) :
    r.streaming m = true ↔ r.Usable m ∧ r.eofs = false ∧ r.cnt.toNat ≤ 8 := by
  simp only [Regs.streaming, Regs.countInRange, Bool.and_eq_true, beq_iff_eq, Bool.not_eq_true', decide_eq_true_eq]
  constructor
  · rintro ⟨⟨⟨⟨ha, hm⟩, hf⟩, he⟩, hc⟩
    exact ⟨⟨ha, hm, hf⟩, he, hc⟩
  · rintro ⟨⟨ha, hm, hf⟩, he, hc⟩
    exact ⟨⟨⟨⟨ha, hm⟩, hf⟩, he⟩, hc⟩

theorem Regs.reset_betweenCommands : Regs.reset.betweenCommands = true := by decide

theorem Regs.eq_reset_of_closed {r : Regs} (hb : r.betweenCommands = true) (ha : r.active = false) :
    r = Regs.reset := by
  obtain ⟨-, -, -, hclosed, -⟩ := r.betweenCommands_iff.1 hb
  exact hclosed ha

/-- An unfaulted Write stream that has not met end-of-file obeys the laws when its count and unfilled bits do. -/
theorem Regs.betweenCommands_of_write {r : Regs} (hu : r.Usable .write) (he : r.eofs = false) (h1 : 1 ≤ r.cnt.toNat)
    (h8 : r.cnt.toNat ≤ 8) (hbuf : r.buf.toNat % 2 ^ r.cnt.toNat = 0) : r.betweenCommands = true := by
  rw [Regs.betweenCommands_iff]
  simp [hu.active, he, h1, h8, hbuf]

/-- A Read stream obeys the laws when its count is in range and end-of-file comes with nothing buffered. -/
theorem Regs.betweenCommands_of_read {r : Regs} (ha : r.active = true) (hm : r.mode = .read) (h8 : r.cnt.toNat ≤ 8)
    (he : r.eofs = true → r.cnt = 0) : r.betweenCommands = true := by
  rw [Regs.betweenCommands_iff]
  simpa [ha, hm, h8] using he

/-- What the laws say of an unfaulted Write stream. -/
theorem Regs.write_laws {r : Regs} (hb : r.betweenCommands = true) (hu : r.Usable .write) :
    r.eofs = false ∧ 1 ≤ r.cnt.toNat ∧ r.cnt.toNat ≤ 8 ∧ r.buf.toNat % 2 ^ r.cnt.toNat = 0 := by
  obtain ⟨h8, hwrite, heof, -, -⟩ := r.betweenCommands_iff.1 hb
  obtain ⟨h1, hbuf⟩ := hwrite hu.active hu.mode hu.fault
  refine ⟨?_, h1, h8, hbuf⟩
  cases he : r.eofs with
  | false => rfl
  | true => exact absurd (hu.mode.symm.trans (heof he).2.1) (by decide)

/-- What the laws say of a Read stream. -/
theorem Regs.read_laws {r : Regs} (hb : r.betweenCommands = true) :
    r.cnt.toNat ≤ 8 ∧ (r.cnt ≠ 0 → r.eofs = false) := by
  obtain ⟨h8, -, heof, -, -⟩ := r.betweenCommands_iff.1 hb
  exact ⟨h8, fun h => Bool.eq_false_iff.2 fun he => h (heof he).2.2⟩

/-! ### What the register updates do to the laws -/

/-- Bits put above place `k` leave the zeros below it, also after the cut to 8 bits. -/
theorem ofNat_or_shiftLeft_mod_eq_zero {a b n k : Nat} (hk : k ≤ n) (hn : n ≤ 8) (ha : a % 2 ^ n = 0) :
    (BitVec.ofNat 8 (a ||| (b <<< k))).toNat % 2 ^ k = 0 := by
  have hak : a % 2 ^ k = 0 := Nat.mod_eq_zero_of_dvd ((Nat.pow_dvd_pow 2 hk).trans (Nat.dvd_of_mod_eq_zero ha))
  have hbk : b <<< k % 2 ^ k = 0 := by rw [Nat.shiftLeft_eq, Nat.mul_mod_left]
  rw [BitVec.toNat_ofNat, Nat.mod_mod_of_dvd _ (Nat.pow_dvd_pow 2 (hk.trans hn)), Nat.or_mod_two_pow, hak, hbk]
  rfl

theorem ofNat4_toNat_of_le {n : Nat} (h : n ≤ 8) : (BitVec.ofNat 4 n).toNat = n := by
  rw [BitVec.toNat_ofNat]
  omega

theorem Regs.emitFailed_betweenCommands {r : Regs} (hs : r.streaming .write = true) :
    r.emitFailed.betweenCommands = true := by
  obtain ⟨hu, he, -⟩ := (r.streaming_iff _).1 hs
  rw [Regs.betweenCommands_iff]
  simp [hu.active, he]

theorem Regs.emitted_betweenCommands {r : Regs} (hs : r.streaming .write = true) :
    r.emitted.betweenCommands = true := by
  obtain ⟨hu, he, -⟩ := (r.streaming_iff _).1 hs
  exact Regs.betweenCommands_of_write ⟨hu.active, hu.mode, hu.fault⟩ he (by simp) (by simp) (by simp)

/-- Placing the last `w < CNT` bits of a field keeps the laws. -/
theorem Regs.fillRest_betweenCommands {r : Regs} {w v : Nat} (hb : r.betweenCommands = true) (hu : r.Usable .write)
    (hw : w < r.cnt.toNat) : (r.fillRest w v).betweenCommands = true := by
  obtain ⟨he, -, h8, hbuf⟩ := Regs.write_laws hb hu
  have hc : (r.fillRest w v).cnt.toNat = r.cnt.toNat - w := ofNat4_toNat_of_le (by omega)
  refine Regs.betweenCommands_of_write ⟨hu.active, hu.mode, hu.fault⟩ he (by omega) (by omega) ?_
  rw [hc]
  exact ofNat_or_shiftLeft_mod_eq_zero (Nat.sub_le _ _) h8 hbuf

theorem Regs.placeBit_betweenCommands {r : Regs} {b : Nat} (hb : r.betweenCommands = true) (hu : r.Usable .write)
    (hc : (r.placeBit b).cnt ≠ 0) : (r.placeBit b).betweenCommands = true := by
  obtain ⟨he, h1, h8, hbuf⟩ := Regs.write_laws hb hu
  have hcnt : (r.placeBit b).cnt.toNat = r.cnt.toNat - 1 := ofNat4_toNat_of_le (by omega)
  have hpos : (r.placeBit b).cnt.toNat ≠ 0 := fun h => hc (BitVec.eq_of_toNat_eq h)
  refine Regs.betweenCommands_of_write ⟨hu.active, hu.mode, hu.fault⟩ he (by omega) (by omega) ?_
  rw [hcnt]
  exact ofNat_or_shiftLeft_mod_eq_zero (Nat.sub_le _ _) h8 hbuf

theorem Regs.consume_betweenCommands {r : Regs} {n : Nat} (hb : r.betweenCommands = true) (hu : r.Usable .read)
    (he : r.eofs = false) : (r.consume n).betweenCommands = true := by
  obtain ⟨h8, -⟩ := Regs.read_laws hb
  have hc : (r.consume n).cnt.toNat = r.cnt.toNat - n := ofNat4_toNat_of_le (by omega)
  exact Regs.betweenCommands_of_read hu.active hu.mode (by omega) (by simp [he])

theorem Regs.discard_betweenCommands {r : Regs} (hb : r.betweenCommands = true) (ha : r.active = true) :
    r.discard.betweenCommands = true := by
  obtain ⟨-, -, heof, -, -⟩ := r.betweenCommands_iff.1 hb
  rw [Regs.betweenCommands_iff]
  cases hm : r.mode with
  | read => simp [ha, hm, freshCount]
  | write =>
    have he : r.eofs = false := Bool.eq_false_iff.2 fun he => absurd (hm.symm.trans (heof he).2.1) (by decide)
    simp [ha, hm, he, freshCount]

theorem Regs.clearEof_betweenCommands {r : Regs} (hb : r.betweenCommands = true) (ha : r.active = true) :
    r.clearEof.betweenCommands = true := by
  obtain ⟨h8, hwrite, -, -, -⟩ := r.betweenCommands_iff.1 hb
  rw [Regs.betweenCommands_iff]
  simpa [ha, h8] using hwrite ha

theorem Regs.opened_betweenCommands (dir : Mode) (owns : Bool) (base : Word64) :
    (Regs.opened dir owns base).betweenCommands = true := by
  rw [Regs.betweenCommands_iff]
  cases dir <;> simp [freshCount]

/-! ### The parts of the invariant -/

/-- A command is latched and has no response yet. -/
def State.Running (s : State) : Prop := s.latched.isSome = true ∧ s.response.isNone = true

/-- What an open stream holds: a file bound to the byte port, and a workspace inside the address space. -/
def State.StreamHeld (s : State) : Prop :=
  s.regs.active = true → s.file.isSome = true ∧ s.workspaceFits s.regs.wsbase = true

/-- The FSM states of a running command in which the stream, if open, holds its file and its workspace, and no other. -/
def Fsm.holdsStream : Fsm → Bool
  | .exec | .waitAlloc _ | .waitWrite _ | .waitRead _ | .waitSeek _ | .waitTell | .waitClose => true
  | _ => false

theorem State.streamHeld_iff (s : State) :
    s.StreamHeld ↔ (!s.regs.active || s.file.isSome) = true ∧
      (!s.regs.active || s.workspaceFits s.regs.wsbase) = true := by
  unfold State.StreamHeld
  cases s.regs.active <;> simp

@[simp] theorem State.park_workspaceFits (f : Fsm) (s : State) : (s.park f).workspaceFits = s.workspaceFits := rfl

@[simp] theorem State.respond_workspaceFits (st : Status) (v : Word64) (s : State) :
    (s.respond st v).workspaceFits = s.workspaceFits := rfl

theorem State.inv_park_iff {f : Fsm} (hf : f.holdsStream = true) (s : State) :
    (s.park f).inv = true ↔ s.regs.fitsFsm f = true ∧ s.Running ∧ s.StreamHeld := by
  rw [State.streamHeld_iff]
  cases f <;> simp [Fsm.holdsStream, State.inv, State.handshakeOk, State.bindingOk, State.workspaceOk,
    State.Running, and_assoc] at hf ⊢

/-- A command is about to run: the laws hold, the command is latched, and an open stream holds what it must. -/
theorem State.inv_park_exec_iff (s : State) :
    (s.park .exec).inv = true ↔ s.regs.betweenCommands = true ∧ s.Running ∧ s.StreamHeld :=
  State.inv_park_iff rfl s

theorem State.inv_park_waitOpen_iff (dir : Mode) (owns : Bool) (base : Word64) (s : State) :
    (s.park (.waitOpen dir owns base)).inv = true ↔
      s.regs = Regs.reset ∧ s.Running ∧ s.workspaceFits base = true := by
  simp only [State.inv, State.handshakeOk, State.bindingOk, State.workspaceOk, State.Running,
    Regs.fitsFsm, State.park_fsm, State.park_regs, State.park_latched, State.park_response, State.park_file,
    State.park_workspaceFits, Bool.and_eq_true, beq_iff_eq, and_assoc]
  constructor
  · rintro ⟨hr, hl, hp, -, hw⟩
    exact ⟨hr, hl, hp, hw⟩
  · rintro ⟨hr, hl, hp, hw⟩
    exact ⟨hr, hl, hp, by simp [hr], hw⟩

theorem State.inv_park_failedOpen_iff (base : Word64) (s : State) :
    (s.park (.waitFree (.failedOpen base))).inv = true ↔
      s.regs = Regs.reset ∧ s.Running ∧ s.workspaceFits base = true :=
  State.inv_park_waitOpen_iff .read false base s

theorem State.inv_park_waitFreeClose_iff (s : State) :
    (s.park (.waitFree .close)).inv = true ↔
      (s.regs.betweenCommands = true ∧ s.regs.active = true ∧ s.regs.owns = true) ∧ s.Running ∧ s.file = none ∧
        s.workspaceFits s.regs.wsbase = true := by
  simp only [State.inv, State.handshakeOk, State.bindingOk, State.workspaceOk, State.Running,
    Regs.fitsFsm, Regs.freeWaitOk, State.park_fsm, State.park_regs, State.park_latched, State.park_response,
    State.park_file, State.park_workspaceFits, Bool.and_eq_true, Option.isNone_iff_eq_none, and_assoc]
  constructor
  · rintro ⟨hb, ha, ho, hl, hp, hf, hw⟩
    exact ⟨hb, ha, ho, hl, hp, hf, by simpa [ha] using hw⟩
  · rintro ⟨hb, ha, ho, hl, hp, hf, hw⟩
    exact ⟨hb, ha, ho, hl, hp, hf, by simpa [ha] using hw⟩

theorem State.inv_respond_iff (st : Status) (v : Word64) (s : State) :
    (s.respond st v).inv = true ↔ s.regs.betweenCommands = true ∧ s.latched.isSome = true ∧ s.StreamHeld := by
  rw [State.streamHeld_iff]
  simp [State.inv, State.handshakeOk, State.bindingOk, State.workspaceOk, Regs.fitsFsm, and_assoc]

theorem State.inv_idle_iff {s : State} (hf : s.fsm = .idle) :
    s.inv = true ↔ s.regs.betweenCommands = true ∧ (s.latched = none ∧ s.response = none) ∧ s.StreamHeld := by
  rw [State.streamHeld_iff]
  simp [State.inv, State.handshakeOk, State.bindingOk, State.workspaceOk, Regs.fitsFsm, hf, and_assoc]

theorem State.inv_resp_iff {s : State} (hf : s.fsm = .resp) :
    s.inv = true ↔
      s.regs.betweenCommands = true ∧ (s.latched.isSome = true ∧ s.response.isSome = true) ∧ s.StreamHeld := by
  rw [State.streamHeld_iff]
  simp [State.inv, State.handshakeOk, State.bindingOk, State.workspaceOk, Regs.fitsFsm, hf, and_assoc]

theorem State.park_self {s : State} {f : Fsm} (hf : s.fsm = f) : s.park f = s := by
  subst hf
  rfl

theorem State.streamHeld_of_closed {s : State} (ha : s.regs.active = false) : s.StreamHeld := fun h =>
  absurd (ha.symm.trans h) (by decide)

/-- A command that is over with every register at its reset value leaves the invariant. -/
theorem State.inv_respond_of_reset {s : State} {st : Status} {v : Word64} (hr : s.regs = Regs.reset)
    (hrun : s.Running) : (s.respond st v).inv = true :=
  (State.inv_respond_iff ..).2
    ⟨hr ▸ Regs.reset_betweenCommands, hrun.1, State.streamHeld_of_closed (by rw [hr]; rfl)⟩

/-! ### The stages keep the invariant -/

theorem putbitEmit_keeps_inv {s t : State} (hs : (s.park (.waitWrite .putbit)).inv = true)
    (h : putbitEmit s = .next t) : t.inv = true := by
  obtain ⟨hfits, hrun, hheld⟩ := (State.inv_park_iff rfl s).1 hs
  have hstream : s.regs.streaming .write = true := (Bool.and_eq_true_iff.1 hfits).1
  rcases putbitEmit_cases s with ⟨-, e⟩ | ⟨d, -, e⟩ | ⟨d, -, e⟩ <;> rw [e] at h <;> cases h
  · exact hs
  · exact (State.inv_respond_iff ..).2 ⟨Regs.emitFailed_betweenCommands hstream, hrun.1, hheld⟩
  · exact (State.inv_respond_iff ..).2 ⟨Regs.emitted_betweenCommands hstream, hrun.1, hheld⟩

/-- The invariant of the `WAIT` state of a PUTBITS with `w` bits left, from its parts. -/
theorem State.inv_park_putbits {s : State} {w : Nat} (v : Word64) (hu : s.regs.Usable .write)
    (he : s.regs.eofs = false) (h1 : 1 ≤ s.regs.cnt.toNat) (h8 : s.regs.cnt.toNat ≤ 8) (hw : w ≤ 63)
    (hrun : s.Running) (hheld : s.StreamHeld) :
    (s.park (.waitWrite (.putbits (BitVec.ofNat 7 w) v))).inv = true := by
  refine (State.inv_park_iff rfl s).2 ⟨?_, hrun, hheld⟩
  have hs : s.regs.streaming .write = true := (Regs.streaming_iff ..).2 ⟨hu, he, h8⟩
  have hw' : w % 128 ≤ 63 := by omega
  simp [Regs.fitsFsm, Regs.writeWaitOk, hs, h1, hw']

/-- The loop of PUTBITS keeps the invariant, entered between two bytes. -/
theorem putbitsLoop_keeps_inv :
    ∀ (fuel w : Nat) (v : Word64) (s t : State), w ≤ 64 → s.regs.Usable .write → (s.park .exec).inv = true →
      putbitsLoop fuel w v s = .next t → t.inv = true
  | 0, _, _, _, _, _, _, _, h => by simp [putbitsLoop] at h
  | fuel + 1, w, v, s, t, hw, hu, hs, h => by
    obtain ⟨hb, hrun, hheld⟩ := s.inv_park_exec_iff.1 hs
    obtain ⟨he, h1, h8, -⟩ := Regs.write_laws hb hu
    have hstream : (s.regs.fillByte (w - s.regs.cnt.toNat) v.toNat).streaming .write = true :=
      (Regs.streaming_iff ..).2 ⟨⟨hu.active, hu.mode, hu.fault⟩, he, h8⟩
    rw [putbitsLoop_succ] at h
    split at h
    · rcases putbitsEmit_cases h with ⟨-, ho⟩ | ⟨d, -, ho⟩ | ⟨d, -, ho⟩
      · cases ho
        exact State.inv_park_putbits v ⟨hu.active, hu.mode, hu.fault⟩ he h1 h8 (by omega) hrun hheld
      · cases ho
        exact (State.inv_respond_iff ..).2 ⟨Regs.emitFailed_betweenCommands hstream, hrun.1, hheld⟩
      · refine putbitsLoop_keeps_inv fuel _ v _ t (by omega) ?_ ?_ ho.symm
        · exact ⟨hu.active, hu.mode, hu.fault⟩
        · exact (State.inv_park_exec_iff _).2 ⟨Regs.emitted_betweenCommands hstream, hrun, hheld⟩
    · cases h
      exact (State.inv_respond_iff ..).2 ⟨Regs.fillRest_betweenCommands hb hu (by omega), hrun.1, hheld⟩

theorem putbitsResume_keeps_inv {w : BitVec 7} {v : Word64} {s t : State}
    (hs : (s.park (.waitWrite (.putbits w v))).inv = true) (h : putbitsResume w.toNat v s = .next t) :
    t.inv = true := by
  obtain ⟨hfits, hrun, hheld⟩ := (State.inv_park_iff rfl s).1 hs
  simp only [Regs.fitsFsm, Regs.writeWaitOk, Bool.and_eq_true, decide_eq_true_eq] at hfits
  obtain ⟨⟨hstream, -⟩, hw⟩ := hfits
  obtain ⟨hu, -⟩ := (Regs.streaming_iff ..).1 hstream
  rcases putbitsEmit_cases h with ⟨-, ho⟩ | ⟨d, -, ho⟩ | ⟨d, -, ho⟩
  · cases ho
    rwa [BitVec.ofNat_toNat, BitVec.setWidth_eq]
  · cases ho
    exact (State.inv_respond_iff ..).2 ⟨Regs.emitFailed_betweenCommands hstream, hrun.1, hheld⟩
  · refine putbitsLoop_keeps_inv _ w.toNat v _ t (by omega) ?_ ?_ ho.symm
    · exact ⟨hu.active, hu.mode, hu.fault⟩
    · exact (State.inv_park_exec_iff _).2 ⟨Regs.emitted_betweenCommands hstream, hrun, hheld⟩

theorem getbitFetch_keeps_inv {s t : State} (hs : (s.park (.waitRead .getbit)).inv = true)
    (h : getbitFetch s = .next t) : t.inv = true := by
  obtain ⟨hfits, hrun, hheld⟩ := (State.inv_park_iff rfl s).1 hs
  simp only [Regs.fitsFsm, Regs.readWaitOk, Bool.and_eq_true, beq_iff_eq] at hfits
  obtain ⟨hstream, hc⟩ := hfits
  obtain ⟨hu, he, h8⟩ := (Regs.streaming_iff ..).1 hstream
  rcases getbitFetch_cases he with ⟨-, e⟩ | ⟨d, -, e⟩ | ⟨d, -, e⟩ | ⟨b, d, -, e⟩ <;> rw [e] at h <;> cases h
  · exact hs
  · exact (State.inv_respond_iff ..).2
      ⟨Regs.betweenCommands_of_read hu.active hu.mode h8 fun _ => hc, hrun.1, hheld⟩
  · exact (State.inv_respond_iff ..).2
      ⟨Regs.betweenCommands_of_read hu.active hu.mode h8 fun _ => hc, hrun.1, hheld⟩
  · exact (State.inv_respond_iff ..).2
      ⟨Regs.betweenCommands_of_read hu.active hu.mode (by simp) (by simp [he]), hrun.1, hheld⟩

/-- The invariant of the `WAIT` state of a GETBITS with `w` bits missing, from its parts. -/
theorem State.inv_park_getbits {s : State} {w : Nat} (res : Word64) (hu : s.regs.Usable .read)
    (he : s.regs.eofs = false) (hc : s.regs.cnt = 0) (h1 : 1 ≤ w) (hw : w ≤ 64)
    (hrun : s.Running) (hheld : s.StreamHeld) :
    (s.park (.waitRead (.getbits (BitVec.ofNat 7 w) res))).inv = true := by
  refine (State.inv_park_iff rfl s).2 ⟨?_, hrun, hheld⟩
  have hs : s.regs.streaming .read = true := (Regs.streaming_iff ..).2 ⟨hu, he, by simp [hc]⟩
  have h1' : 1 ≤ w % 128 := by omega
  have hw' : w % 128 ≤ 64 := by omega
  simp [Regs.fitsFsm, Regs.readWaitOk, hs, hc, h1', hw']

/-- The fetch inside GETBITS, with what its loop keeps, leaves the invariant. -/
theorem getbitsFetch_keeps_inv {loop : State → Outcome} {w : Nat} {res : Word64} {s t : State}
    (hu : s.regs.Usable .read) (he : s.regs.eofs = false) (hc : s.regs.cnt = 0) (h1 : 1 ≤ w) (hw : w ≤ 64)
    (hrun : s.Running) (hheld : s.StreamHeld)
    (hloop : ∀ u, u.regs.Usable .read → u.regs.eofs = false → (u.park .exec).inv = true → loop u = .next t →
      t.inv = true)
    (h : getbitsFetch loop w res s = .next t) : t.inv = true := by
  have h8 : s.regs.cnt.toNat ≤ 8 := by simp [hc]
  rcases getbitsFetch_cases h he with ⟨-, ho⟩ | ⟨d, -, ho⟩ | ⟨d, -, ho⟩ | ⟨b, d, -, ho⟩
  · cases ho
    exact State.inv_park_getbits res hu he hc h1 hw hrun hheld
  · cases ho
    exact (State.inv_respond_iff ..).2
      ⟨Regs.betweenCommands_of_read hu.active hu.mode h8 fun _ => hc, hrun.1, hheld⟩
  · cases ho
    exact (State.inv_respond_iff ..).2
      ⟨Regs.betweenCommands_of_read hu.active hu.mode h8 fun _ => hc, hrun.1, hheld⟩
  · refine hloop _ ?_ ?_ ?_ ho.symm
    · exact ⟨hu.active, hu.mode, hu.fault⟩
    · exact he
    · exact (State.inv_park_exec_iff _).2
        ⟨Regs.betweenCommands_of_read hu.active hu.mode (by simp) (by simp [he]), hrun, hheld⟩

/-- The loop of GETBITS keeps the invariant, entered between two bytes. -/
theorem getbitsLoop_keeps_inv :
    ∀ (fuel w : Nat) (res : Word64) (s t : State), w ≤ 64 → s.regs.Usable .read → s.regs.eofs = false →
      (s.park .exec).inv = true → getbitsLoop fuel w res s = .next t → t.inv = true
  | 0, _, _, _, _, _, _, _, _, h => by simp [getbitsLoop] at h
  | fuel + 1, w, res, s, t, hw, hu, he, hs, h => by
    obtain ⟨hb, hrun, hheld⟩ := s.inv_park_exec_iff.1 hs
    rw [getbitsLoop_succ] at h
    split at h
    · exact getbitsFetch_keeps_inv (s := s.setRegs s.regs.drain) ⟨hu.active, hu.mode, hu.fault⟩ he rfl (by omega)
        (by omega) hrun hheld (fun u hu' he' hs' => getbitsLoop_keeps_inv fuel _ _ u t (by omega) hu' he' hs') h
    · cases h
      exact (State.inv_respond_iff ..).2 ⟨Regs.consume_betweenCommands hb hu he, hrun.1, hheld⟩

theorem getbitsResume_keeps_inv {w : BitVec 7} {res : Word64} {s t : State}
    (hs : (s.park (.waitRead (.getbits w res))).inv = true) (h : getbitsResume w.toNat res s = .next t) :
    t.inv = true := by
  obtain ⟨hfits, hrun, hheld⟩ := (State.inv_park_iff rfl s).1 hs
  simp only [Regs.fitsFsm, Regs.readWaitOk, Bool.and_eq_true, beq_iff_eq, decide_eq_true_eq] at hfits
  obtain ⟨⟨⟨hstream, hc⟩, h1⟩, hw⟩ := hfits
  obtain ⟨hu, he, -⟩ := (Regs.streaming_iff ..).1 hstream
  exact getbitsFetch_keeps_inv hu he hc h1 hw hrun hheld
    (fun u hu' he' hs' => getbitsLoop_keeps_inv _ _ _ u t hw hu' he' hs') h

theorem seekPort_keeps_inv {wh : Whence} {s t : State} (hs : (s.park (.waitSeek wh)).inv = true)
    (h : seekPort wh s = .next t) : t.inv = true := by
  obtain ⟨hfits, hrun, hheld⟩ := (State.inv_park_iff rfl s).1 hs
  simp only [Regs.fitsFsm, Bool.and_eq_true] at hfits
  obtain ⟨⟨hb, ha⟩, -⟩ := hfits
  rcases seekPort_cases wh s with ⟨-, e⟩ | ⟨d, -, e⟩ | ⟨r, d, st, -, e⟩ <;> rw [e] at h <;> cases h
  · exact hs
  · exact (State.inv_respond_iff ..).2 ⟨Regs.clearEof_betweenCommands hb ha, hrun.1, hheld⟩
  · exact (State.inv_respond_iff ..).2 ⟨hb, hrun.1, hheld⟩

theorem tellPort_keeps_inv {s t : State} (hs : (s.park .waitTell).inv = true) (h : tellPort s = .next t) :
    t.inv = true := by
  obtain ⟨hfits, hrun, hheld⟩ := (State.inv_park_iff rfl s).1 hs
  simp only [Regs.fitsFsm, Bool.and_eq_true] at hfits
  obtain ⟨⟨hb, -⟩, -⟩ := hfits
  rcases tellPort_cases s with ⟨-, e⟩ | ⟨r, d, st, v, -, e⟩ <;> rw [e] at h <;> cases h
  · exact hs
  · exact (State.inv_respond_iff ..).2 ⟨hb, hrun.1, hheld⟩

theorem openFree_keeps_inv {base : Word64} {s t : State} (hs : (s.park (.waitFree (.failedOpen base))).inv = true)
    (h : openFree base s = .next t) : t.inv = true := by
  obtain ⟨hr, hrun, -⟩ := (State.inv_park_failedOpen_iff base s).1 hs
  rcases openFree_cases base s with ⟨-, e⟩ | ⟨m, -, e⟩ <;> rw [e] at h <;> cases h
  · exact hs
  · exact State.inv_respond_of_reset hr hrun

theorem openPort_keeps_inv {dir : Mode} {owns : Bool} {base : Word64} {s t : State}
    (hs : (s.park (.waitOpen dir owns base)).inv = true) (h : openPort dir owns base s = .next t) : t.inv = true := by
  obtain ⟨hr, hrun, hfits⟩ := (State.inv_park_waitOpen_iff dir owns base s).1 hs
  rcases hd : s.device.openFile s.openPath dir with _ | ⟨_ | _, d⟩
  · rw [openPort_of_unanswered hd] at h
    cases h
    exact hs
  · rw [openPort_of_ok hd] at h
    cases h
    exact (State.inv_respond_iff ..).2 ⟨Regs.opened_betweenCommands dir owns base, hrun.1, fun _ => ⟨rfl, hfits⟩⟩
  · rw [openPort_of_err hd] at h
    split at h
    · refine openFree_keeps_inv ?_ h
      exact (State.inv_park_failedOpen_iff base _).2 ⟨hr, hrun, hfits⟩
    · cases h
      exact State.inv_respond_of_reset hr hrun

theorem openAlloc_keeps_inv {dir : Mode} {s t : State} (hs : (s.park (.waitAlloc dir)).inv = true)
    (h : openAlloc dir s = .next t) : t.inv = true := by
  obtain ⟨hfits, hrun, -⟩ := (State.inv_park_iff rfl s).1 hs
  have hr : s.regs = Regs.reset := beq_iff_eq.1 hfits
  rcases hm : s.allocator.alloc s.cfg.workspaceSize with _ | ⟨a | _, m⟩
  · rw [openAlloc_of_unanswered hm] at h
    cases h
    exact hs
  · rw [openAlloc_of_addr hm] at h
    refine openPort_keeps_inv ?_ h
    exact (State.inv_park_waitOpen_iff ..).2 ⟨hr, hrun, decide_eq_true (allocated_block_fits hm)⟩
  · rw [openAlloc_of_fail hm] at h
    cases h
    exact State.inv_respond_of_reset hr hrun

theorem closeFree_keeps_inv {s t : State} (hs : (s.park (.waitFree .close)).inv = true) (h : closeFree s = .next t) :
    t.inv = true := by
  obtain ⟨-, hrun, -⟩ := (State.inv_park_waitFreeClose_iff s).1 hs
  rcases closeFree_cases s with ⟨-, e⟩ | ⟨m, -, e⟩ <;> rw [e] at h <;> cases h
  · exact hs
  · exact State.inv_respond_of_reset rfl hrun

theorem closePort_keeps_inv {s t : State} (hs : (s.park .waitClose).inv = true) (h : closePort s = .next t) :
    t.inv = true := by
  obtain ⟨hfits, hrun, hheld⟩ := (State.inv_park_iff rfl s).1 hs
  obtain ⟨hb, ha⟩ := Bool.and_eq_true_iff.1 hfits
  rcases hd : s.device.close with _ | ⟨r, d⟩
  · rw [closePort_of_unanswered hd] at h
    cases h
    exact hs
  · rw [closePort_of_answer hd] at h
    split at h
    case isTrue ho =>
      refine closeFree_keeps_inv ?_ h
      exact (State.inv_park_waitFreeClose_iff _).2 ⟨⟨hb, ha, ho⟩, hrun, rfl, (hheld ha).2⟩
    case isFalse =>
      cases h
      exact State.inv_respond_of_reset rfl hrun

theorem closeFlush_keeps_inv {s t : State} (hs : (s.park (.waitWrite .close)).inv = true)
    (h : closeFlush s = .next t) : t.inv = true := by
  obtain ⟨hfits, hrun, hheld⟩ := (State.inv_park_iff rfl s).1 hs
  rcases closeFlush_answers s with ⟨-, e⟩ | ⟨r, d, -, e⟩ <;> rw [e] at h
  · cases h
    exact hs
  · refine closePort_keeps_inv ?_ h
    exact (State.inv_park_iff rfl _).2 ⟨(Bool.and_eq_true_iff.1 hfits).1, hrun, hheld⟩

/-! ### The instructions keep the invariant -/

/-- A command that its checks turn away, or that only answers, leaves the invariant. -/
theorem State.inv_respond_of_exec {s : State} (hs : (s.park .exec).inv = true) (st : Status) (v : Word64) :
    (s.respond st v).inv = true := by
  obtain ⟨hb, hrun, hheld⟩ := s.inv_park_exec_iff.1 hs
  exact (State.inv_respond_iff ..).2 ⟨hb, hrun.1, hheld⟩

theorem openSupplied_keeps_inv {dir : Mode} {s t : State} (hr : s.regs = Regs.reset) (hs : (s.park .exec).inv = true)
    (h : openSupplied dir s = .next t) : t.inv = true := by
  obtain ⟨-, hrun, -⟩ := s.inv_park_exec_iff.1 hs
  rcases openSupplied_cases dir s with ⟨st, e⟩ | ⟨hB, hA⟩
  · rw [e] at h
    cases h
    exact State.inv_respond_of_exec hs st 0
  · rw [openSupplied_of_checks hB hA] at h
    exact openPort_keeps_inv ((State.inv_park_waitOpen_iff ..).2 ⟨hr, hrun, decide_eq_true (by omega)⟩) h

theorem execOpen_keeps_inv {ws : Bool} {s t : State} (hs : (s.park .exec).inv = true)
    (h : execOpen ws s = .next t) : t.inv = true := by
  obtain ⟨hb, hrun, hheld⟩ := s.inv_park_exec_iff.1 hs
  rcases execOpen_cases ws s with ⟨st, e⟩ | ⟨ha, path, m, dir, hp, hm, hd⟩
  · rw [e] at h
    cases h
    exact State.inv_respond_of_exec hs st 0
  · have hr : s.regs = Regs.reset := Regs.eq_reset_of_closed hb ha
    rw [execOpen_of_checks ha hp hm hd] at h
    split at h
    · exact openSupplied_keeps_inv hr hs h
    · exact openAlloc_keeps_inv ((State.inv_park_iff rfl s).2 ⟨beq_iff_eq.2 hr, hrun, hheld⟩) h

theorem execClose_keeps_inv {s t : State} (hs : (s.park .exec).inv = true) (h : execClose s = .next t) :
    t.inv = true := by
  obtain ⟨hb, hrun, hheld⟩ := s.inv_park_exec_iff.1 hs
  cases ha : s.regs.active with
  | false =>
    rw [execClose_of_closed ha] at h
    cases h
    exact State.inv_respond_of_exec hs .ok 0
  | true =>
    rw [execClose_of_open ha] at h
    split at h
    case isTrue hp =>
      exact closeFlush_keeps_inv ((State.inv_park_iff rfl s).2
        ⟨Bool.and_eq_true_iff.2 ⟨Bool.and_eq_true_iff.2 ⟨hb, ha⟩, hp⟩, hrun, hheld⟩) h
    case isFalse =>
      exact closePort_keeps_inv ((State.inv_park_iff rfl s).2 ⟨Bool.and_eq_true_iff.2 ⟨hb, ha⟩, hrun, hheld⟩) h

theorem putbitPlace_keeps_inv {s t : State} (hu : s.regs.Usable .write) (hs : (s.park .exec).inv = true)
    (h : putbitPlace s = .next t) : t.inv = true := by
  obtain ⟨hb, hrun, hheld⟩ := s.inv_park_exec_iff.1 hs
  rw [putbitPlace_eq] at h
  split at h
  case isTrue hc =>
    have hstream : (s.regs.placeBit (operandBit s.operandA)).streaming .write = true :=
      (Regs.streaming_iff ..).2 ⟨⟨hu.active, hu.mode, hu.fault⟩, (Regs.write_laws hb hu).1, by rw [hc]; decide⟩
    refine putbitEmit_keeps_inv ?_ h
    exact (State.inv_park_iff rfl _).2 ⟨Bool.and_eq_true_iff.2 ⟨hstream, beq_iff_eq.2 hc⟩, hrun, hheld⟩
  case isFalse hc =>
    cases h
    exact (State.inv_respond_iff ..).2 ⟨Regs.placeBit_betweenCommands hb hu hc, hrun.1, hheld⟩

theorem execPutbit_keeps_inv {s t : State} (hs : (s.park .exec).inv = true) (h : execPutbit s = .next t) :
    t.inv = true := by
  rcases execPutbit_cases s with ⟨st, e⟩ | hu
  · rw [e] at h
    cases h
    exact State.inv_respond_of_exec hs st 0
  · rw [execPutbit_of_usable hu] at h
    split at h
    · cases h
    · exact putbitPlace_keeps_inv hu hs h

theorem execPutbits_keeps_inv {w : Nat} {s t : State} (hs : (s.park .exec).inv = true)
    (h : execPutbits w s = .next t) : t.inv = true := by
  rcases execPutbits_cases w s with ⟨st, e⟩ | ⟨hu, hw⟩
  · rw [e] at h
    cases h
    exact State.inv_respond_of_exec hs st 0
  · rw [execPutbits_of_usable hu hw] at h
    exact putbitsLoop_keeps_inv _ _ _ _ _ hw hu hs h

theorem execGetbit_keeps_inv {s t : State} (hs : (s.park .exec).inv = true) (h : execGetbit s = .next t) :
    t.inv = true := by
  obtain ⟨hb, hrun, hheld⟩ := s.inv_park_exec_iff.1 hs
  rcases execGetbit_cases s with ⟨st, e⟩ | hu
  · rw [e] at h
    cases h
    exact State.inv_respond_of_exec hs st 0
  rw [execGetbit_of_usable hu] at h
  split at h
  case isTrue hc =>
    cases he : s.regs.eofs with
    | true =>
      rw [getbitFetch_of_eofs he] at h
      cases h
      exact State.inv_respond_of_exec hs .endOfStream 0
    | false =>
      have hstream : s.regs.streaming .read = true := (Regs.streaming_iff ..).2 ⟨hu, he, (Regs.read_laws hb).1⟩
      exact getbitFetch_keeps_inv ((State.inv_park_iff rfl s).2
        ⟨Bool.and_eq_true_iff.2 ⟨hstream, beq_iff_eq.2 hc⟩, hrun, hheld⟩) h
  case isFalse hc =>
    cases h
    exact (State.inv_respond_iff ..).2
      ⟨Regs.consume_betweenCommands hb hu ((Regs.read_laws hb).2 hc), hrun.1, hheld⟩

theorem execGetbits_keeps_inv {w : Nat} {s t : State} (hs : (s.park .exec).inv = true)
    (h : execGetbits w s = .next t) : t.inv = true := by
  obtain ⟨hb, -, -⟩ := s.inv_park_exec_iff.1 hs
  rcases execGetbits_cases w s with ⟨st, e⟩ | ⟨hu, hw, hc⟩
  · rw [e] at h
    cases h
    exact State.inv_respond_of_exec hs st 0
  · have he : s.regs.eofs = false := Bool.eq_false_iff.2 fun he => by simp [(Regs.read_laws hb).2 (hc he)] at he
    rw [execGetbits_of_usable hu hw hc] at h
    exact getbitsLoop_keeps_inv _ _ _ _ _ hw hu he hs h

theorem execSeek_keeps_inv {wh : Whence} {s t : State} (hs : (s.park .exec).inv = true)
    (h : execSeek wh s = .next t) : t.inv = true := by
  obtain ⟨hb, hrun, hheld⟩ := s.inv_park_exec_iff.1 hs
  rcases execSeek_cases wh s with ⟨st, e⟩ | ⟨ha, hf⟩
  · rw [e] at h
    cases h
    exact State.inv_respond_of_exec hs st 0
  · rw [execSeek_of_unfaulted ha hf] at h
    refine seekPort_keeps_inv ?_ h
    refine (State.inv_park_iff rfl _).2 ⟨?_, hrun, hheld⟩
    simp [Regs.fitsFsm, Regs.discard_betweenCommands hb ha, ha, hf]

theorem execTell_keeps_inv {s t : State} (hs : (s.park .exec).inv = true) (h : execTell s = .next t) :
    t.inv = true := by
  obtain ⟨hb, hrun, hheld⟩ := s.inv_park_exec_iff.1 hs
  rcases execTell_cases s with ⟨st, e⟩ | ⟨ha, hf⟩
  · rw [e] at h
    cases h
    exact State.inv_respond_of_exec hs st 0
  · rw [execTell_of_unfaulted ha hf] at h
    refine tellPort_keeps_inv ((State.inv_park_iff rfl s).2 ⟨?_, hrun, hheld⟩) h
    simp [Regs.fitsFsm, hb, ha, hf]

theorem exec_keeps_inv {i : Instr} {s t : State} (hs : (s.park .exec).inv = true) (h : exec i s = .next t) :
    t.inv = true := by
  cases i with
  | wssize => cases h; exact State.inv_respond_of_exec hs .ok _
  | openFile ws => exact execOpen_keeps_inv hs h
  | close => exact execClose_keeps_inv hs h
  | putbit => exact execPutbit_keeps_inv hs h
  | putbits w => exact execPutbits_keeps_inv hs h
  | getbit => exact execGetbit_keeps_inv hs h
  | getbits w => exact execGetbits_keeps_inv hs h
  | seek wh => exact execSeek_keeps_inv hs h
  | tell => exact execTell_keeps_inv hs h

/-! ### The steps keep the invariant -/

theorem runLatched_legal {s : State} {c : Command} {i : Instr} (hl : s.latched = some c)
    (hd : decode c.word = .legal i) : runLatched s = exec i s := by
  simp [runLatched, hl, hd]

theorem runLatched_illegal {s : State} {c : Command} {e : DecodeError} (hl : s.latched = some c)
    (hd : decode c.word = .illegal e) : runLatched s = .next (s.respond .invalidArgument 0) := by
  simp [runLatched, hl, hd]

theorem runLatched_keeps_inv {s t : State} (hs : (s.park .exec).inv = true) (h : runLatched s = .next t) :
    t.inv = true := by
  obtain ⟨-, ⟨hl, -⟩, -⟩ := s.inv_park_exec_iff.1 hs
  obtain ⟨c, hc⟩ := Option.isSome_iff_exists.1 hl
  rcases hd : decode c.word with i | e
  · rw [runLatched_legal hc hd] at h
    exact exec_keeps_inv hs h
  · rw [runLatched_illegal hc hd] at h
    cases h
    exact State.inv_respond_of_exec hs .invalidArgument 0

theorem idleStep_keeps_inv {s t : State} (hf : s.fsm = .idle) (hs : s.inv = true) (h : idleStep s = .next t) :
    t.inv = true := by
  obtain ⟨hb, ⟨-, hp⟩, hheld⟩ := (State.inv_idle_iff hf).1 hs
  rcases ho : s.offered with _ | ⟨c, rest⟩ <;> simp only [idleStep, ho] at h
  · cases h
    exact hs
  · exact runLatched_keeps_inv ((State.inv_park_iff rfl (s.accept c rest)).2
      ⟨hb, ⟨rfl, by simp [hp]⟩, hheld⟩) h

theorem respStep_keeps_inv {s t : State} (hf : s.fsm = .resp) (hs : s.inv = true) (h : respStep s = .next t) :
    t.inv = true := by
  obtain ⟨hb, -, hheld⟩ := (State.inv_resp_iff hf).1 hs
  cases h
  split
  · exact (State.inv_idle_iff rfl).2 ⟨hb, ⟨rfl, rfl⟩, hheld⟩
  · exact hs

theorem State.hardwareReset_inv (s : State) : s.hardwareReset.inv = true :=
  (State.inv_idle_iff rfl).2 ⟨Regs.reset_betweenCommands, ⟨rfl, rfl⟩, State.streamHeld_of_closed rfl⟩

theorem fsmStep_keeps_inv {s t : State} (hs : s.inv = true) (h : fsmStep s = .next t) : t.inv = true := by
  have hpark {f} (hf : s.fsm = f) : (s.park f).inv = true := by rwa [State.park_self hf]
  cases hf : s.fsm <;> rw [fsmStep, hf] at h
  case idle => exact idleStep_keeps_inv hf hs h
  case exec => exact runLatched_keeps_inv (hpark hf) h
  case waitAlloc dir => exact openAlloc_keeps_inv (hpark hf) h
  case waitOpen dir owns base => exact openPort_keeps_inv (hpark hf) h
  case waitWrite k =>
    cases k with
    | putbit => exact putbitEmit_keeps_inv (hpark hf) h
    | putbits w v => exact putbitsResume_keeps_inv (hpark hf) h
    | close => exact closeFlush_keeps_inv (hpark hf) h
  case waitRead k =>
    cases k with
    | getbit => exact getbitFetch_keeps_inv (hpark hf) h
    | getbits w res => exact getbitsResume_keeps_inv (hpark hf) h
  case waitSeek wh => exact seekPort_keeps_inv (hpark hf) h
  case waitTell => exact tellPort_keeps_inv (hpark hf) h
  case waitClose => exact closePort_keeps_inv (hpark hf) h
  case waitFree k =>
    cases k with
    | failedOpen base => exact openFree_keeps_inv (hpark hf) h
    | close => exact closeFree_keeps_inv (hpark hf) h
  case resp => exact respStep_keeps_inv hf hs h

theorem step_of_resetLine {s : State} (hl : s.resetLine = true) : step s = .next s.hardwareReset := by
  simp [step, advance, hl]

theorem step_of_noReset {s : State} (hl : s.resetLine = false) : step s = fsmStep s := by
  simp [step, advance, hl]

theorem step_keeps_inv {s t : State} (hs : s.inv = true) (h : step s = .next t) : t.inv = true := by
  cases hl : s.resetLine with
  | true =>
    rw [step_of_resetLine hl] at h
    cases h
    exact s.hardwareReset_inv
  | false =>
    rw [step_of_noReset hl] at h
    exact fsmStep_keeps_inv hs h

theorem reset_inv : State.reset.inv = true := by decide

theorem Reachable.inv {s : State} (h : Reachable s) : s.inv = true := by
  induction h with
  | powerOn => exact reset_inv
  | step _ hstep ih => exact step_keeps_inv ih hstep
  | input offered ready line d m _ ih => exact ih

/-- Settles O16: each stage entered with the invariant of its `WAIT` state leaves the invariant. -/
theorem everyStepKeepsTheInvariant : Obligations.EveryStepKeepsTheInvariant := fun _ _ hs h => step_keeps_inv hs h

/-- Settles O15. -/
theorem invariantHoldsAtPowerOn : Obligations.InvariantHoldsAtPowerOn := reset_inv

/-- Settles O17: the laws are the part of the invariant that `IDLE` and `RESP` have in common. -/
theorem contextLawsHoldBetweenCommands : Obligations.ContextLawsHoldBetweenCommands := by
  intro s hreach hf
  have hb : s.regs.betweenCommands = true := by
    rcases hf with hf | hf
    · exact ((State.inv_idle_iff hf).1 hreach.inv).1
    · exact ((State.inv_resp_iff hf).1 hreach.inv).1
  obtain ⟨h8, hwrite, heof, hclosed, hfault⟩ := s.regs.betweenCommands_iff.1 hb
  refine ⟨h8, fun ha hm hfl => ⟨(hwrite ha hm hfl).1, h8, (hwrite ha hm hfl).2⟩, heof, fun ha => ?_, hfault⟩
  rw [hclosed ha]
  exact ⟨rfl, rfl, rfl, rfl, rfl, rfl, rfl⟩

end Sys2Proof.Machine
end

section
/-! SUPPORT. What the instructions leave alone: the host's side always; mode, workspace, file and allocator but for OPEN
and CLOSE. -/

namespace Sys2Proof.Machine

open Sys2Proof

/-- What every stage but those of OPEN and CLOSE leaves alone. -/
structure StreamKept (s t : State) : Prop extends HostSideKept s t where
  active : t.regs.active = s.regs.active
  mode : t.regs.mode = s.regs.mode
  owns : t.regs.owns = s.regs.owns
  wsbase : t.regs.wsbase = s.regs.wsbase
  file : t.file = s.file
  allocator : t.allocator = s.allocator

/-- What every stage of PUTBIT and PUTBITS leaves alone. -/
structure WriteKept (s t : State) : Prop extends StreamKept s t where
  eofs : t.regs.eofs = s.regs.eofs

/-- What every stage of CLOSE leaves alone: it ends with the reset values or has written no register. -/
structure CloseKept (s t : State) : Prop extends HostSideKept s t where
  regs : t.regs = s.regs ∨ t.regs = Regs.reset

theorem StreamKept.trans {s t u : State} (h : StreamKept s t) (k : StreamKept t u) : StreamKept s u :=
  ⟨h.toHostSideKept.trans k.toHostSideKept, k.active.trans h.active, k.mode.trans h.mode, k.owns.trans h.owns,
    k.wsbase.trans h.wsbase, k.file.trans h.file, k.allocator.trans h.allocator⟩

theorem WriteKept.trans {s t u : State} (h : WriteKept s t) (k : WriteKept t u) : WriteKept s u :=
  ⟨h.toStreamKept.trans k.toStreamKept, k.eofs.trans h.eofs⟩

/-- Everything a stage of OPEN or CLOSE may write. -/
theorem State.anyUpdate_hostSideKept (s : State) (r : Regs) (f : Fsm) (p : Option Response) (b : Option FileBinding)
    (d : Device) (m : Allocator) (x : List Transaction) :
    HostSideKept s
      { s with regs := r, fsm := f, response := p, file := b, device := d, allocator := m, traffic := x } :=
  ⟨rfl, rfl, rfl, rfl, rfl, rfl⟩

/-- Everything a stage of the read path or of SEEK or TELL may write. -/
theorem State.readUpdate_streamKept (s : State) (buf : BitVec 8) (cnt : BitVec 4) (eofs fault : Bool) (f : Fsm)
    (p : Option Response) (d : Device) (x : List Transaction) :
    StreamKept s
      { s with
        regs := { s.regs with buf := buf, cnt := cnt, eofs := eofs, fault := fault }
        fsm := f, response := p, device := d, traffic := x } :=
  ⟨s.anyUpdate_hostSideKept .., rfl, rfl, rfl, rfl, rfl, rfl⟩

/-- Everything a stage of the write path may write. -/
theorem State.writeUpdate_writeKept (s : State) (buf : BitVec 8) (cnt : BitVec 4) (fault : Bool) (f : Fsm)
    (p : Option Response) (d : Device) (x : List Transaction) :
    WriteKept s
      { s with
        regs := { s.regs with buf := buf, cnt := cnt, fault := fault }
        fsm := f, response := p, device := d, traffic := x } :=
  ⟨s.readUpdate_streamKept .., rfl⟩

/-! ### The write path -/

theorem putbitEmit_kept {s t : State} (h : putbitEmit s = .next t) : WriteKept s t := by
  rcases putbitEmit_cases s with ⟨-, e⟩ | ⟨d, -, e⟩ | ⟨d, -, e⟩ <;> rw [e] at h <;> cases h <;>
    exact s.writeUpdate_writeKept ..

theorem putbitPlace_kept {s t : State} (h : putbitPlace s = .next t) : WriteKept s t := by
  have hplace : WriteKept s (s.setRegs (s.regs.placeBit (operandBit s.operandA))) :=
    s.writeUpdate_writeKept ..
  rw [putbitPlace_eq] at h
  split at h
  · exact hplace.trans (putbitEmit_kept h)
  · cases h
    exact s.writeUpdate_writeKept ..

theorem putbitsEmit_kept {loop : State → Outcome} {w : Nat} {v : Word64} {s t : State}
    (hloop : ∀ u, loop u = .next t → WriteKept u t) (h : putbitsEmit loop w v s = .next t) : WriteKept s t := by
  rcases putbitsEmit_cases h with ⟨-, ho⟩ | ⟨d, -, ho⟩ | ⟨d, -, ho⟩
  · cases ho
    exact s.writeUpdate_writeKept ..
  · cases ho
    exact s.writeUpdate_writeKept ..
  · refine WriteKept.trans ?_ (hloop _ ho.symm)
    exact s.writeUpdate_writeKept ..

theorem putbitsLoop_kept :
    ∀ (fuel w : Nat) (v : Word64) (s t : State), putbitsLoop fuel w v s = .next t → WriteKept s t
  | 0, _, _, _, _, h => by simp [putbitsLoop] at h
  | fuel + 1, w, v, s, t, h => by
    rw [putbitsLoop_succ] at h
    split at h
    · refine WriteKept.trans ?_ (putbitsEmit_kept (fun u hu => putbitsLoop_kept fuel _ v u t hu) h)
      exact s.writeUpdate_writeKept ..
    · cases h
      exact s.writeUpdate_writeKept ..

theorem putbitsResume_kept {w : Nat} {v : Word64} {s t : State} (h : putbitsResume w v s = .next t) : WriteKept s t :=
  putbitsEmit_kept (fun u hu => putbitsLoop_kept _ w v u t hu) h

theorem execPutbit_kept {s t : State} (h : execPutbit s = .next t) : WriteKept s t := by
  rcases execPutbit_cases s with ⟨st, e⟩ | hu
  · rw [e] at h
    cases h
    exact s.writeUpdate_writeKept ..
  · rw [execPutbit_of_usable hu] at h
    split at h
    · cases h
    · exact putbitPlace_kept h

theorem execPutbits_kept {w : Nat} {s t : State} (h : execPutbits w s = .next t) : WriteKept s t := by
  rcases execPutbits_cases w s with ⟨st, e⟩ | ⟨hu, hw⟩
  · rw [e] at h
    cases h
    exact s.writeUpdate_writeKept ..
  · rw [execPutbits_of_usable hu hw] at h
    exact putbitsLoop_kept _ _ _ _ _ h

/-! ### The read path -/

theorem getbitFetch_kept {s t : State} (h : getbitFetch s = .next t) : StreamKept s t := by
  cases he : s.regs.eofs with
  | true =>
    rw [getbitFetch_of_eofs he] at h
    cases h
    exact s.readUpdate_streamKept ..
  | false =>
    rcases getbitFetch_cases he with ⟨-, e⟩ | ⟨d, -, e⟩ | ⟨d, -, e⟩ | ⟨b, d, -, e⟩ <;> rw [e] at h <;> cases h <;>
      exact s.readUpdate_streamKept ..

theorem getbitsFetch_kept {loop : State → Outcome} {w : Nat} {res : Word64} {s t : State}
    (hloop : ∀ u, loop u = .next t → StreamKept u t) (h : getbitsFetch loop w res s = .next t) : StreamKept s t := by
  cases he : s.regs.eofs with
  | true =>
    rw [getbitsFetch_of_eofs he] at h
    cases h
    exact s.readUpdate_streamKept ..
  | false =>
    rcases getbitsFetch_cases h he with ⟨-, ho⟩ | ⟨d, -, ho⟩ | ⟨d, -, ho⟩ | ⟨b, d, -, ho⟩
    · cases ho
      exact s.readUpdate_streamKept ..
    · cases ho
      exact s.readUpdate_streamKept ..
    · cases ho
      exact s.readUpdate_streamKept ..
    · refine StreamKept.trans ?_ (hloop _ ho.symm)
      exact s.readUpdate_streamKept ..

theorem getbitsLoop_kept :
    ∀ (fuel w : Nat) (res : Word64) (s t : State), getbitsLoop fuel w res s = .next t → StreamKept s t
  | 0, _, _, _, _, h => by simp [getbitsLoop] at h
  | fuel + 1, w, res, s, t, h => by
    rw [getbitsLoop_succ] at h
    split at h
    · refine StreamKept.trans ?_ (getbitsFetch_kept (fun u hu => getbitsLoop_kept fuel _ _ u t hu) h)
      exact s.readUpdate_streamKept ..
    · cases h
      exact s.readUpdate_streamKept ..

theorem getbitsResume_kept {w : Nat} {res : Word64} {s t : State} (h : getbitsResume w res s = .next t) :
    StreamKept s t :=
  getbitsFetch_kept (fun u hu => getbitsLoop_kept _ w res u t hu) h

theorem execGetbit_kept {s t : State} (h : execGetbit s = .next t) : StreamKept s t := by
  rcases execGetbit_cases s with ⟨st, e⟩ | hu
  · rw [e] at h
    cases h
    exact s.readUpdate_streamKept ..
  · rw [execGetbit_of_usable hu] at h
    split at h
    · exact getbitFetch_kept h
    · cases h
      exact s.readUpdate_streamKept ..

theorem execGetbits_kept {w : Nat} {s t : State} (h : execGetbits w s = .next t) : StreamKept s t := by
  rcases execGetbits_cases w s with ⟨st, e⟩ | ⟨hu, hw, hc⟩
  · rw [e] at h
    cases h
    exact s.readUpdate_streamKept ..
  · rw [execGetbits_of_usable hu hw hc] at h
    exact getbitsLoop_kept _ _ _ _ _ h

/-! ### SEEK and TELL -/

theorem seekPort_kept {wh : Whence} {s t : State} (h : seekPort wh s = .next t) :
    StreamKept s t ∧ t.regs.fault = s.regs.fault := by
  rcases seekPort_cases wh s with ⟨-, e⟩ | ⟨d, -, e⟩ | ⟨r, d, st, -, e⟩ <;> rw [e] at h <;> cases h <;>
    exact ⟨s.readUpdate_streamKept .., rfl⟩

theorem execSeek_kept {wh : Whence} {s t : State} (h : execSeek wh s = .next t) :
    StreamKept s t ∧ t.regs.fault = s.regs.fault := by
  rcases execSeek_cases wh s with ⟨st, e⟩ | ⟨ha, hf⟩
  · rw [e] at h
    cases h
    exact ⟨s.readUpdate_streamKept .., rfl⟩
  · rw [execSeek_of_unfaulted ha hf] at h
    obtain ⟨hk, hfault⟩ := seekPort_kept h
    refine ⟨StreamKept.trans ?_ hk, hfault⟩
    exact s.readUpdate_streamKept ..

theorem tellPort_kept {s t : State} (h : tellPort s = .next t) : StreamKept s t ∧ t.regs = s.regs := by
  rcases tellPort_cases s with ⟨-, e⟩ | ⟨r, d, st, v, -, e⟩ <;> rw [e] at h <;> cases h <;>
    exact ⟨s.readUpdate_streamKept .., rfl⟩

theorem execTell_kept {s t : State} (h : execTell s = .next t) : StreamKept s t ∧ t.regs = s.regs := by
  rcases execTell_cases s with ⟨st, e⟩ | ⟨ha, hf⟩
  · rw [e] at h
    cases h
    exact ⟨s.readUpdate_streamKept .., rfl⟩
  · rw [execTell_of_unfaulted ha hf] at h
    exact tellPort_kept h

/-! ### OPEN and CLOSE -/

theorem openFree_hostSideKept {base : Word64} {s t : State} (h : openFree base s = .next t) : HostSideKept s t := by
  rcases openFree_cases base s with ⟨-, e⟩ | ⟨m, -, e⟩ <;> rw [e] at h <;> cases h <;>
    exact s.anyUpdate_hostSideKept ..

theorem openPort_hostSideKept {dir : Mode} {owns : Bool} {base : Word64} {s t : State}
    (h : openPort dir owns base s = .next t) : HostSideKept s t := by
  rcases hd : s.device.openFile s.openPath dir with _ | ⟨_ | _, d⟩
  · rw [openPort_of_unanswered hd] at h
    cases h
    exact s.anyUpdate_hostSideKept ..
  · rw [openPort_of_ok hd] at h
    cases h
    exact s.anyUpdate_hostSideKept ..
  · rw [openPort_of_err hd] at h
    split at h
    · refine HostSideKept.trans ?_ (openFree_hostSideKept h)
      exact s.anyUpdate_hostSideKept ..
    · cases h
      exact s.anyUpdate_hostSideKept ..

theorem openAlloc_hostSideKept {dir : Mode} {s t : State} (h : openAlloc dir s = .next t) : HostSideKept s t := by
  rcases hm : s.allocator.alloc s.cfg.workspaceSize with _ | ⟨a | _, m⟩
  · rw [openAlloc_of_unanswered hm] at h
    cases h
    exact s.anyUpdate_hostSideKept ..
  · rw [openAlloc_of_addr hm] at h
    refine HostSideKept.trans ?_ (openPort_hostSideKept h)
    exact s.anyUpdate_hostSideKept ..
  · rw [openAlloc_of_fail hm] at h
    cases h
    exact s.anyUpdate_hostSideKept ..

theorem openSupplied_hostSideKept {dir : Mode} {s t : State} (h : openSupplied dir s = .next t) :
    HostSideKept s t := by
  rcases openSupplied_cases dir s with ⟨st, e⟩ | ⟨hB, hA⟩
  · rw [e] at h
    cases h
    exact s.anyUpdate_hostSideKept ..
  · rw [openSupplied_of_checks hB hA] at h
    exact openPort_hostSideKept h

theorem execOpen_hostSideKept {ws : Bool} {s t : State} (h : execOpen ws s = .next t) : HostSideKept s t := by
  rcases execOpen_cases ws s with ⟨st, e⟩ | ⟨ha, path, m, dir, hp, hm, hd⟩
  · rw [e] at h
    cases h
    exact s.anyUpdate_hostSideKept ..
  · rw [execOpen_of_checks ha hp hm hd] at h
    split at h
    · exact openSupplied_hostSideKept h
    · exact openAlloc_hostSideKept h

theorem closeFree_kept {s t : State} (h : closeFree s = .next t) : CloseKept s t := by
  rcases closeFree_cases s with ⟨-, e⟩ | ⟨m, -, e⟩ <;> rw [e] at h <;> cases h
  · exact ⟨s.anyUpdate_hostSideKept .., .inl rfl⟩
  · exact ⟨s.anyUpdate_hostSideKept .., .inr rfl⟩

theorem closePort_kept {s t : State} (h : closePort s = .next t) : CloseKept s t := by
  rcases hd : s.device.close with _ | ⟨r, d⟩
  · rw [closePort_of_unanswered hd] at h
    cases h
    exact ⟨s.anyUpdate_hostSideKept .., .inl rfl⟩
  · rw [closePort_of_answer hd] at h
    split at h
    · obtain ⟨hk, hr⟩ := closeFree_kept h
      refine ⟨HostSideKept.trans ?_ hk, hr⟩
      exact s.anyUpdate_hostSideKept ..
    · cases h
      exact ⟨s.anyUpdate_hostSideKept .., .inr rfl⟩

theorem closeFlush_kept {s t : State} (h : closeFlush s = .next t) : CloseKept s t := by
  rcases closeFlush_answers s with ⟨-, e⟩ | ⟨r, d, -, e⟩ <;> rw [e] at h
  · cases h
    exact ⟨s.anyUpdate_hostSideKept .., .inl rfl⟩
  · obtain ⟨hk, hr⟩ := closePort_kept h
    refine ⟨HostSideKept.trans ?_ hk, hr⟩
    exact s.anyUpdate_hostSideKept ..

theorem execClose_kept {s t : State} (h : execClose s = .next t) : CloseKept s t := by
  cases ha : s.regs.active with
  | false =>
    rw [execClose_of_closed ha] at h
    cases h
    exact ⟨s.anyUpdate_hostSideKept .., .inl rfl⟩
  | true =>
    rw [execClose_of_open ha] at h
    split at h
    · exact closeFlush_kept h
    · exact closePort_kept h

/-! ### All instructions -/

theorem exec_hostSideKept {i : Instr} {s t : State} (h : exec i s = .next t) : HostSideKept s t := by
  cases i with
  | wssize => cases h; exact s.anyUpdate_hostSideKept ..
  | openFile ws => exact execOpen_hostSideKept h
  | close => exact (execClose_kept h).toHostSideKept
  | putbit => exact (execPutbit_kept h).toHostSideKept
  | putbits w => exact (execPutbits_kept h).toHostSideKept
  | getbit => exact (execGetbit_kept h).toHostSideKept
  | getbits w => exact (execGetbits_kept h).toHostSideKept
  | seek wh => exact (execSeek_kept h).1.toHostSideKept
  | tell => exact (execTell_kept h).1.toHostSideKept

theorem exec_streamKept {i : Instr} {s t : State} (hopen : ∀ ws, i ≠ .openFile ws) (hclose : i ≠ .close)
    (h : exec i s = .next t) : StreamKept s t := by
  cases i with
  | wssize => cases h; exact s.readUpdate_streamKept ..
  | openFile ws => exact absurd rfl (hopen ws)
  | close => exact absurd rfl hclose
  | putbit => exact (execPutbit_kept h).toStreamKept
  | putbits w => exact (execPutbits_kept h).toStreamKept
  | getbit => exact execGetbit_kept h
  | getbits w => exact execGetbits_kept h
  | seek wh => exact (execSeek_kept h).1
  | tell => exact (execTell_kept h).1

/-- Settles O21. -/
theorem commandsLeaveTheHostSideAlone : Obligations.CommandsLeaveTheHostSideAlone := by
  intro i s t h
  obtain ⟨hcfg, hlatched, hoffered, hready, hline, hexchanges⟩ := exec_hostSideKept h
  refine ⟨hcfg, hlatched, hoffered, hexchanges, hready, hline, fun hopen hclose => ?_⟩
  have hk := exec_streamKept hopen hclose h
  exact ⟨hk.file, hk.allocator⟩

/-- Settles O20: one clause per group of registers of the table of R22. -/
theorem registersAreWrittenOnlyByTheirCommands : Obligations.RegistersAreWrittenOnlyByTheirCommands := by
  intro i s t h
  refine ⟨fun hopen hclose => ?_, ?_, ?_, ?_⟩
  · have hk := exec_streamKept hopen hclose h
    exact ⟨hk.active, hk.mode, hk.owns, hk.wsbase⟩
  · rintro (rfl | rfl)
    · cases h
      rfl
    · exact (execTell_kept h).2
  · rintro (rfl | ⟨w, rfl⟩)
    · exact (execPutbit_kept h).eofs
    · exact (execPutbits_kept h).eofs
  · rintro ⟨wh, rfl⟩
    exact (execSeek_kept h).2

/-! ### The mode of an open stream (R24) -/

/-- No step from `s` to `t` changes the mode of a stream that is open before and after it. -/
def ModeKeptWhileOpen (s t : State) : Prop :=
  s.regs.active = true → t.regs.active = true → t.regs.mode = s.regs.mode

theorem StreamKept.modeKept {s t : State} (h : StreamKept s t) : ModeKeptWhileOpen s t := fun _ _ => h.mode

theorem CloseKept.modeKept {s t : State} (h : CloseKept s t) : ModeKeptWhileOpen s t := fun _ ht => by
  rcases h.regs with hr | hr
  · rw [hr]
  · rw [hr] at ht
    cases ht

/-- A stage of OPEN runs on a CLOSED engine. -/
theorem modeKept_of_reset {s t : State} (hr : s.regs = Regs.reset) : ModeKeptWhileOpen s t := fun hs _ => by
  rw [hr] at hs
  cases hs

theorem exec_modeKept {i : Instr} {s t : State} (h : exec i s = .next t) : ModeKeptWhileOpen s t := by
  by_cases hclose : i = .close
  · subst hclose
    exact (execClose_kept h).modeKept
  by_cases hopen : ∃ ws, i = .openFile ws
  · obtain ⟨ws, rfl⟩ := hopen
    intro hs _
    cases (execOpen_of_active ws hs).symm.trans h
    rfl
  exact (exec_streamKept (not_exists.1 hopen) hclose h).modeKept

theorem runLatched_modeKept {s t : State} (h : runLatched s = .next t) : ModeKeptWhileOpen s t := by
  rcases hl : s.latched with _ | c
  · simp [runLatched, hl] at h
  rcases hd : decode c.word with i | e
  · rw [runLatched_legal hl hd] at h
    exact exec_modeKept h
  · rw [runLatched_illegal hl hd] at h
    cases h
    exact fun _ _ => rfl

theorem idleStep_modeKept {s t : State} (h : idleStep s = .next t) : ModeKeptWhileOpen s t := by
  rcases ho : s.offered with _ | ⟨c, rest⟩ <;> simp only [idleStep, ho] at h
  · cases h
    exact fun _ _ => rfl
  · exact runLatched_modeKept (s := s.accept c rest) h

theorem respStep_modeKept {s t : State} (h : respStep s = .next t) : ModeKeptWhileOpen s t := by
  cases h
  split <;> exact fun _ _ => rfl

theorem fsmStep_modeKept {s t : State} (hs : s.inv = true) (h : fsmStep s = .next t) : ModeKeptWhileOpen s t := by
  have hpark {f} (hf : s.fsm = f) : (s.park f).inv = true := by rwa [State.park_self hf]
  cases hf : s.fsm <;> rw [fsmStep, hf] at h
  case idle => exact idleStep_modeKept h
  case exec => exact runLatched_modeKept h
  case waitAlloc dir => exact modeKept_of_reset (beq_iff_eq.1 ((State.inv_park_iff rfl s).1 (hpark hf)).1)
  case waitOpen dir owns base => exact modeKept_of_reset ((State.inv_park_waitOpen_iff ..).1 (hpark hf)).1
  case waitWrite k =>
    cases k with
    | putbit => exact (putbitEmit_kept h).modeKept
    | putbits w v => exact (putbitsResume_kept h).modeKept
    | close => exact (closeFlush_kept h).modeKept
  case waitRead k =>
    cases k with
    | getbit => exact (getbitFetch_kept h).modeKept
    | getbits w res => exact (getbitsResume_kept h).modeKept
  case waitSeek wh => exact (seekPort_kept h).1.modeKept
  case waitTell => exact (tellPort_kept h).1.modeKept
  case waitClose => exact (closePort_kept h).modeKept
  case waitFree k =>
    cases k with
    | failedOpen base => exact modeKept_of_reset ((State.inv_park_failedOpen_iff ..).1 (hpark hf)).1
    | close => exact (closeFree_kept h).modeKept
  case resp => exact respStep_modeKept h

/-- Settles O26: OPEN does nothing on an open stream, CLOSE leaves it closed, and no other command writes `MODE`. -/
theorem modeIsFixedWhileOpen : Obligations.ModeIsFixedWhileOpen := by
  intro s t hs h
  cases hl : s.resetLine with
  | true =>
    rw [step_of_resetLine hl] at h
    cases h
    exact fun _ ht => absurd ht Bool.false_ne_true
  | false =>
    rw [step_of_noReset hl] at h
    exact fsmStep_modeKept hs h

end Sys2Proof.Machine
end

section
/-! SUPPORT. Every instruction answers (R173), and going on after a wait is running the command with the answers at hand
(R34). -/

namespace Sys2Proof.Machine

open Sys2Proof

/-! ### Every instruction answers -/

theorem getbitFetch_answers (s : State) : ∃ t, getbitFetch s = .next t := by
  cases he : s.regs.eofs with
  | true => exact ⟨_, getbitFetch_of_eofs he⟩
  | false =>
    rcases getbitFetch_cases he with ⟨-, e⟩ | ⟨d, -, e⟩ | ⟨d, -, e⟩ | ⟨b, d, -, e⟩ <;> exact ⟨_, e⟩

theorem putbitEmit_answers (s : State) : ∃ t, putbitEmit s = .next t := by
  rcases putbitEmit_cases s with ⟨-, e⟩ | ⟨d, -, e⟩ | ⟨d, -, e⟩ <;> exact ⟨_, e⟩

theorem seekPort_answers (wh : Whence) (s : State) : ∃ t, seekPort wh s = .next t := by
  rcases seekPort_cases wh s with ⟨-, e⟩ | ⟨d, -, e⟩ | ⟨r, d, st, -, e⟩ <;> exact ⟨_, e⟩

theorem tellPort_answers (s : State) : ∃ t, tellPort s = .next t := by
  rcases tellPort_cases s with ⟨-, e⟩ | ⟨r, d, st, v, -, e⟩ <;> exact ⟨_, e⟩

/-- After its first turn, whatever `CNT` it starts from, the PUTBITS loop has a full byte free at every turn. -/
theorem putbitsLoop_answers_of_fuel {fuel w : Nat} (v : Word64) (s : State) (hw : w < fuel) :
    ∃ t, putbitsLoop (fuel + 1) w v s = .next t := by
  rw [putbitsLoop_succ]
  split
  · generalize ho : putbitsEmit _ _ _ _ = o
    rcases putbitsEmit_cases ho with ⟨-, rfl⟩ | ⟨d, -, rfl⟩ | ⟨d, -, rfl⟩
    · exact ⟨_, rfl⟩
    · exact ⟨_, rfl⟩
    · exact putbitsLoop_answers fuel _ v _ (by omega) rfl
  · exact ⟨_, rfl⟩

/-- After its first turn, whatever `CNT` it starts from, the GETBITS loop has a full byte to take at every turn. -/
theorem getbitsLoop_answers_of_fuel {fuel w : Nat} (res : Word64) (s : State) (hw : w < fuel) :
    ∃ t, getbitsLoop (fuel + 1) w res s = .next t := by
  rw [getbitsLoop_succ]
  split
  · cases he : s.regs.eofs with
    | true => exact ⟨_, getbitsFetch_of_eofs he⟩
    | false =>
      generalize ho : getbitsFetch _ _ _ _ = o
      rcases getbitsFetch_cases ho he with ⟨-, rfl⟩ | ⟨d, -, rfl⟩ | ⟨d, -, rfl⟩ | ⟨b, d, -, rfl⟩
      · exact ⟨_, rfl⟩
      · exact ⟨_, rfl⟩
      · exact ⟨_, rfl⟩
      · exact getbitsLoop_answers fuel _ _ _ (by omega) rfl he
  · exact ⟨_, rfl⟩

theorem closeFlush_next (s : State) : ∃ t, closeFlush s = .next t := by
  rcases closeFlush_answers s with ⟨-, e⟩ | ⟨r, d, -, e⟩
  · exact ⟨_, e⟩
  · obtain ⟨t, -, h, -⟩ := closePort_answers (s.transacted d (.portWrite s.regs.buf r))
    exact ⟨t, e.trans h⟩

theorem execClose_answers (s : State) : ∃ t, execClose s = .next t := by
  cases ha : s.regs.active with
  | false => exact ⟨_, execClose_of_closed ha⟩
  | true =>
    rw [execClose_of_open ha]
    split
    · exact closeFlush_next s
    · obtain ⟨t, -, h, -⟩ := closePort_answers s
      exact ⟨t, h⟩

theorem openSupplied_answers (dir : Mode) (s : State) : ∃ t, openSupplied dir s = .next t := by
  rcases openSupplied_cases dir s with ⟨st, e⟩ | ⟨hB, hA⟩
  · exact ⟨_, e⟩
  · obtain ⟨t, -, h, -⟩ := openPort_answers dir false s.operandA s
    exact ⟨t, (openSupplied_of_checks hB hA).trans h⟩

theorem execOpen_answers (ws : Bool) (s : State) : ∃ t, execOpen ws s = .next t := by
  rcases execOpen_cases ws s with ⟨st, e⟩ | ⟨ha, path, m, dir, hp, hm, hd⟩
  · exact ⟨_, e⟩
  rw [execOpen_of_checks ha hp hm hd]
  split
  · exact openSupplied_answers dir s
  · obtain ⟨t, -, h, -⟩ := openAlloc_answers dir s
    exact ⟨t, h⟩

theorem putbitPlace_answers (s : State) : ∃ t, putbitPlace s = .next t := by
  rw [putbitPlace_eq]
  split
  · exact putbitEmit_answers _
  · exact ⟨_, rfl⟩

/-- PUTBIT stops only where R26 says `CNT` cannot be 0. -/
theorem execPutbit_answers (s : State) :
    (∃ t, execPutbit s = .next t) ∨
      (s.regs.Usable .write ∧ s.regs.cnt = 0 ∧ execPutbit s = .fault .countUnderflow) := by
  rcases execPutbit_cases s with ⟨st, e⟩ | hu
  · exact .inl ⟨_, e⟩
  by_cases hc : s.regs.cnt = 0
  · exact .inr ⟨hu, hc, by rw [execPutbit_of_usable hu, if_pos hc]⟩
  · rw [execPutbit_of_usable hu, if_neg hc]
    exact .inl (putbitPlace_answers s)

theorem execPutbits_answers (w : Nat) (s : State) : ∃ t, execPutbits w s = .next t := by
  rcases execPutbits_cases w s with ⟨st, e⟩ | ⟨hu, hw⟩
  · exact ⟨_, e⟩
  · rw [execPutbits_of_usable hu hw]
    exact putbitsLoop_answers_of_fuel _ s (Nat.lt_succ_self w)

theorem execGetbit_answers (s : State) : ∃ t, execGetbit s = .next t := by
  rcases execGetbit_cases s with ⟨st, e⟩ | hu
  · exact ⟨_, e⟩
  rw [execGetbit_of_usable hu]
  split
  · exact getbitFetch_answers s
  · exact ⟨_, rfl⟩

theorem execGetbits_answers (w : Nat) (s : State) : ∃ t, execGetbits w s = .next t := by
  rcases execGetbits_cases w s with ⟨st, e⟩ | ⟨hu, hw, hc⟩
  · exact ⟨_, e⟩
  · rw [execGetbits_of_usable hu hw hc]
    exact getbitsLoop_answers_of_fuel 0 s (Nat.lt_succ_self w)

theorem execSeek_answers (wh : Whence) (s : State) : ∃ t, execSeek wh s = .next t := by
  rcases execSeek_cases wh s with ⟨st, e⟩ | ⟨ha, hf⟩
  · exact ⟨_, e⟩
  · rw [execSeek_of_unfaulted ha hf]
    exact seekPort_answers wh _

theorem execTell_answers (s : State) : ∃ t, execTell s = .next t := by
  rcases execTell_cases s with ⟨st, e⟩ | ⟨ha, hf⟩
  · exact ⟨_, e⟩
  · rw [execTell_of_unfaulted ha hf]
    exact tellPort_answers s

/-- Settles O19: only PUTBIT has a path that stops, and both loops have fuel for every width. -/
theorem everyInstructionAnswers : Obligations.EveryInstructionAnswers := by
  intro i s
  cases i with
  | wssize => exact .inl ⟨_, rfl⟩
  | openFile ws => exact .inl (execOpen_answers ws s)
  | close => exact .inl (execClose_answers s)
  | putbit =>
    refine (execPutbit_answers s).imp_right ?_
    rintro ⟨⟨ha, hm, hf⟩, hc, hstop⟩
    exact ⟨rfl, ha, hm, hf, hc, hstop⟩
  | putbits w => exact .inl (execPutbits_answers w s)
  | getbit => exact .inl (execGetbit_answers s)
  | getbits w => exact .inl (execGetbits_answers w s)
  | seek wh => exact .inl (execSeek_answers wh s)
  | tell => exact .inl (execTell_answers s)

/-! ### More answers leave the ones at hand first -/

theorem Device.openFile_feed {d d' : Device} {path : Bytes} {dir : Mode} {r : IoAnswer} (p : Script)
    (h : d.openFile path dir = some (r, d')) : (d.feed p).openFile path dir = some (r, d'.feed p) := by
  cases d with
  | scripted q =>
    rcases hq : q.opens with _ | ⟨r', rest⟩ <;> simp [Device.openFile, hq] at h
    obtain ⟨rfl, rfl⟩ := h
    simp [Device.openFile, Device.feed, Script.append, hq]
  | reference f =>
    cases h
    rfl

theorem Device.read_feed {d d' : Device} {r : ReadAnswer} (p : Script) (h : d.read = some (r, d')) :
    (d.feed p).read = some (r, d'.feed p) := by
  cases d with
  | scripted q =>
    rcases hq : q.reads with _ | ⟨r', rest⟩ <;> simp [Device.read, hq] at h
    obtain ⟨rfl, rfl⟩ := h
    simp [Device.read, Device.feed, Script.append, hq]
  | reference f =>
    rcases hf : f.read with _ | ⟨r', f'⟩ <;> simp [Device.read, hf] at h
    obtain ⟨rfl, rfl⟩ := h
    simp [Device.read, Device.feed, hf]

theorem Device.write_feed {d d' : Device} {b : Byte} {r : IoAnswer} (p : Script) (h : d.write b = some (r, d')) :
    (d.feed p).write b = some (r, d'.feed p) := by
  cases d with
  | scripted q =>
    rcases hq : q.writes with _ | ⟨r', rest⟩ <;> simp [Device.write, hq] at h
    obtain ⟨rfl, rfl⟩ := h
    simp [Device.write, Device.feed, Script.append, hq]
  | reference f =>
    rcases hf : f.write b with _ | ⟨r', f'⟩ <;> simp [Device.write, hf] at h
    obtain ⟨rfl, rfl⟩ := h
    simp [Device.write, Device.feed, hf]

theorem Device.close_feed {d d' : Device} {r : IoAnswer} (p : Script) (h : d.close = some (r, d')) :
    (d.feed p).close = some (r, d'.feed p) := by
  cases d with
  | scripted q =>
    rcases hq : q.closes with _ | ⟨r', rest⟩ <;> simp [Device.close, hq] at h
    obtain ⟨rfl, rfl⟩ := h
    simp [Device.close, Device.feed, Script.append, hq]
  | reference f =>
    cases h
    rfl

/-- An allocator with more answers and more completions to give. -/
def Allocator.feed (allocs : List AllocAnswer) (frees : Nat) (m : Allocator) : Allocator :=
  { allocs := m.allocs ++ allocs, frees := m.frees + frees }

theorem Allocator.alloc_feed {m m' : Allocator} {n : Nat} {r : AllocAnswer} (allocs : List AllocAnswer) (frees : Nat)
    (h : m.alloc n = some (r, m')) : (m.feed allocs frees).alloc n = some (r, m'.feed allocs frees) := by
  obtain ⟨hr, ha, hf⟩ := allocator_alloc_eq_some.1 h
  exact allocator_alloc_eq_some.2 ⟨hr, by simp [Allocator.feed, ha], by simp [Allocator.feed, hf]⟩

/-! ### Going on after a wait

A stage is shown to resume by the three ways it can end: it waits, it answers, or another stage runs. -/

/-- If the stage, entered in `s`, stops at an unanswered transaction and more answers come, the step from there gives
what the stage gives with those answers at hand. -/
def Resumes (p : Script) (allocs : List AllocAnswer) (frees : Nat) (stage : State → Outcome) (s : State) : Prop :=
  ∀ t, stage s = .next t → t.fsm ≠ .resp → fsmStep (t.feed p allocs frees) = stage (s.feed p allocs frees)

section

variable {p : Script} {allocs : List AllocAnswer} {frees : Nat} {stage stage' : State → Outcome} {s s' : State}

theorem Resumes.of_wait {f : Fsm} (h : stage s = .next (s.park f))
    (hresume : fsmStep ((s.feed p allocs frees).park f) = stage (s.feed p allocs frees)) :
    Resumes p allocs frees stage s := by
  intro t ht _
  cases h.symm.trans ht
  exact hresume

theorem Resumes.of_respond {st : Status} {v : Word64} (h : stage s = .next (s'.respond st v)) :
    Resumes p allocs frees stage s := by
  intro t ht hne
  cases h.symm.trans ht
  exact absurd rfl hne

theorem Resumes.of_eq (h : stage s = stage' s')
    (hfeed : stage (s.feed p allocs frees) = stage' (s'.feed p allocs frees)) (hr : Resumes p allocs frees stage' s') :
    Resumes p allocs frees stage s := fun t ht hne =>
  (hr t (h.symm.trans ht) hne).trans hfeed.symm

end

/-! No stage reads the FSM state it is entered in. -/

theorem putbitEmit_park (f : Fsm) (s : State) : putbitEmit (s.park f) = putbitEmit s := by
  unfold putbitEmit State.portWrite
  rw [State.park_device, State.park_regs]
  rcases s.device.write s.regs.buf with _ | ⟨_ | _, d⟩ <;> rfl

theorem getbitFetch_park (f : Fsm) (s : State) : getbitFetch (s.park f) = getbitFetch s := by
  unfold getbitFetch State.fetch State.portRead
  rw [State.park_device, State.park_regs]
  cases s.regs.eofs <;> rcases s.device.read with _ | ⟨_ | _ | _, d⟩ <;> rfl

theorem seekPort_park (wh : Whence) (f : Fsm) (s : State) : seekPort wh (s.park f) = seekPort wh s := by
  have ha : (s.park f).operandA = s.operandA := rfl
  unfold seekPort State.portSeek
  rw [State.park_device, ha]
  rcases s.device.seek (operandOffset s.operandA) wh with _ | ⟨_ | _ | _, d⟩ <;> rfl

theorem tellPort_park (f : Fsm) (s : State) : tellPort (s.park f) = tellPort s := by
  unfold tellPort State.portTell
  rw [State.park_device]
  rcases s.device.tell with _ | ⟨_ | _, d⟩ <;> rfl

theorem openFree_park (base : Word64) (f : Fsm) (s : State) : openFree base (s.park f) = openFree base s := by
  unfold openFree State.free
  rw [State.park_allocator]
  rcases s.allocator.free with _ | m <;> rfl

theorem openPort_park (dir : Mode) (owns : Bool) (base : Word64) (f : Fsm) (s : State) :
    openPort dir owns base (s.park f) = openPort dir owns base s := by
  rcases hd : s.device.openFile s.openPath dir with _ | ⟨_ | _, d⟩
  · rw [openPort_of_unanswered hd]
    exact openPort_of_unanswered hd
  · rw [openPort_of_ok hd]
    exact openPort_of_ok hd
  · rw [openPort_of_err hd]
    refine (openPort_of_err (s := s.park f) hd).trans ?_
    cases owns with
    | true => exact openFree_park base f ((s.transacted d _).bind none)
    | false => rfl

theorem openAlloc_park (dir : Mode) (f : Fsm) (s : State) : openAlloc dir (s.park f) = openAlloc dir s := by
  rcases hm : s.allocator.alloc s.cfg.workspaceSize with _ | ⟨a | _, m⟩
  · rw [openAlloc_of_unanswered hm]
    exact openAlloc_of_unanswered hm
  · rw [openAlloc_of_addr hm]
    exact (openAlloc_of_addr (s := s.park f) hm).trans (openPort_park dir true a f (s.allocated m _))
  · rw [openAlloc_of_fail hm]
    exact openAlloc_of_fail hm

theorem closeFree_park (f : Fsm) (s : State) : closeFree (s.park f) = closeFree s := by
  unfold closeFree State.free
  rw [State.park_allocator]
  rcases s.allocator.free with _ | m <;> rfl

theorem closePort_park (f : Fsm) (s : State) : closePort (s.park f) = closePort s := by
  rcases hd : s.device.close with _ | ⟨r, d⟩
  · rw [closePort_of_unanswered hd]
    exact closePort_of_unanswered hd
  · rw [closePort_of_answer hd]
    refine (closePort_of_answer (s := s.park f) hd).trans ?_
    rw [State.park_regs]
    cases s.regs.owns with
    | true => exact closeFree_park f ((s.transacted d _).bind none)
    | false => rfl

theorem closeFlush_park (f : Fsm) (s : State) : closeFlush (s.park f) = closeFlush s := by
  rcases hd : s.device.write s.regs.buf with _ | ⟨r, d⟩
  · unfold closeFlush State.portWrite
    rw [State.park_device, State.park_regs, hd]
    rfl
  · rw [closeFlush_of_answer hd]
    exact (closeFlush_of_answer (s := s.park f) hd).trans (closePort_park f (s.transacted d _))

/-- The emit of PUTBITS reads neither the FSM state nor more of its loop than what that does with a full byte free. -/
theorem putbitsEmit_park {loop loop' : State → Outcome} {f : Fsm}
    (hloop : ∀ u : State, u.regs.cnt = 8 → loop (u.park f) = loop' u) (w : Nat) (v : Word64) (s : State) :
    putbitsEmit loop w v (s.park f) = putbitsEmit loop' w v s := by
  unfold putbitsEmit State.portWrite
  rw [State.park_device, State.park_regs]
  rcases s.device.write s.regs.buf with _ | ⟨_ | _, d⟩
  · rfl
  · exact hloop ((s.transacted d _).setRegs s.regs.emitted) rfl
  · rfl

/-- The PUTBITS loop is the same with any fuel that suffices, and in any FSM state. -/
theorem putbitsLoop_park (f : Fsm) (v : Word64) :
    ∀ (fuel fuel' w : Nat) (s : State), w < fuel → w < fuel' → s.regs.cnt = 8 →
      putbitsLoop fuel w v (s.park f) = putbitsLoop fuel' w v s
  | 0, _, _, _, hw, _, _ => absurd hw (Nat.not_lt_zero _)
  | _ + 1, 0, _, _, _, hw, _ => absurd hw (Nat.not_lt_zero _)
  | fuel + 1, fuel' + 1, w, s, hw, hw', hc => by
    have h8 : s.regs.cnt.toNat = 8 := by rw [hc]; rfl
    rw [putbitsLoop_succ, putbitsLoop_succ, State.park_regs, h8]
    split
    · exact putbitsEmit_park (fun u hu => putbitsLoop_park f v fuel fuel' (w - 8) u (by omega) (by omega) hu)
        (w - 8) v (s.setRegs _)
    · rfl

/-- The fetch of GETBITS reads neither the FSM state nor more of its loop than what that does with a full byte to
take. -/
theorem getbitsFetch_park {loop loop' : State → Outcome} {f : Fsm}
    (hloop : ∀ u : State, u.regs.cnt = 8 → loop (u.park f) = loop' u) (w : Nat) (res : Word64) (s : State) :
    getbitsFetch loop w res (s.park f) = getbitsFetch loop' w res s := by
  unfold getbitsFetch State.fetch State.portRead
  rw [State.park_device, State.park_regs]
  cases s.regs.eofs with
  | true => rfl
  | false =>
    rcases s.device.read with _ | ⟨b | _ | _, d⟩
    · rfl
    · exact hloop ((s.transacted d _).setRegs (s.regs.load b 8)) rfl
    · rfl
    · rfl

/-- The GETBITS loop is the same with any fuel that suffices, and in any FSM state. -/
theorem getbitsLoop_park (f : Fsm) :
    ∀ (fuel fuel' w : Nat) (res : Word64) (s : State), w < fuel → w < fuel' → s.regs.cnt = 8 →
      getbitsLoop fuel w res (s.park f) = getbitsLoop fuel' w res s
  | 0, _, _, _, _, hw, _, _ => absurd hw (Nat.not_lt_zero _)
  | _ + 1, 0, _, _, _, _, hw, _ => absurd hw (Nat.not_lt_zero _)
  | fuel + 1, fuel' + 1, w, res, s, hw, hw', hc => by
    have h8 : s.regs.cnt.toNat = 8 := by rw [hc]; rfl
    rw [getbitsLoop_succ, getbitsLoop_succ, State.park_regs, h8]
    split
    · exact getbitsFetch_park (fun u hu => getbitsLoop_park f fuel fuel' (w - 8) _ u (by omega) (by omega) hu)
        (w - 8) _ (s.setRegs s.regs.drain)
    · rfl

/-! Each stage resumes. -/

section

variable (p : Script) (allocs : List AllocAnswer) (frees : Nat)

theorem putbitEmit_resumes (s : State) : Resumes p allocs frees putbitEmit s := by
  rcases putbitEmit_cases s with ⟨-, e⟩ | ⟨d, -, e⟩ | ⟨d, -, e⟩
  · exact .of_wait e (putbitEmit_park _ _)
  · exact .of_respond e
  · exact .of_respond e

theorem getbitFetch_resumes (s : State) : Resumes p allocs frees getbitFetch s := by
  cases he : s.regs.eofs with
  | true => exact .of_respond (getbitFetch_of_eofs he)
  | false =>
    rcases getbitFetch_cases he with ⟨-, e⟩ | ⟨d, -, e⟩ | ⟨d, -, e⟩ | ⟨b, d, -, e⟩
    · exact .of_wait e (getbitFetch_park _ _)
    · exact .of_respond e
    · exact .of_respond e
    · exact .of_respond e

theorem seekPort_resumes (wh : Whence) (s : State) : Resumes p allocs frees (seekPort wh) s := by
  rcases seekPort_cases wh s with ⟨-, e⟩ | ⟨d, -, e⟩ | ⟨r, d, st, -, e⟩
  · exact .of_wait e (seekPort_park wh _ _)
  · exact .of_respond e
  · exact .of_respond e

theorem tellPort_resumes (s : State) : Resumes p allocs frees tellPort s := by
  rcases tellPort_cases s with ⟨-, e⟩ | ⟨r, d, st, v, -, e⟩
  · exact .of_wait e (tellPort_park _ _)
  · exact .of_respond e

theorem openFree_resumes (base : Word64) (s : State) : Resumes p allocs frees (openFree base) s := by
  rcases openFree_cases base s with ⟨-, e⟩ | ⟨m, -, e⟩
  · exact .of_wait e (openFree_park base _ _)
  · exact .of_respond e

theorem openPort_resumes (dir : Mode) (owns : Bool) (base : Word64) (s : State) :
    Resumes p allocs frees (openPort dir owns base) s := by
  rcases hd : s.device.openFile s.openPath dir with _ | ⟨_ | _, d⟩
  · exact .of_wait (openPort_of_unanswered hd) (openPort_park dir owns base _ _)
  · exact .of_respond (openPort_of_ok hd)
  · cases owns with
    | true =>
      exact .of_eq (openPort_of_err hd) (openPort_of_err (Device.openFile_feed p hd))
        (openFree_resumes p allocs frees base _)
    | false => exact .of_respond (openPort_of_err hd)

theorem openAlloc_resumes (dir : Mode) (s : State) : Resumes p allocs frees (openAlloc dir) s := by
  rcases hm : s.allocator.alloc s.cfg.workspaceSize with _ | ⟨a | _, m⟩
  · exact .of_wait (openAlloc_of_unanswered hm) (openAlloc_park dir _ _)
  · exact .of_eq (openAlloc_of_addr hm) (openAlloc_of_addr (Allocator.alloc_feed allocs frees hm))
      (openPort_resumes p allocs frees dir true a _)
  · exact .of_respond (openAlloc_of_fail hm)

theorem closeFree_resumes (s : State) : Resumes p allocs frees closeFree s := by
  rcases closeFree_cases s with ⟨-, e⟩ | ⟨m, -, e⟩
  · exact .of_wait e (closeFree_park _ _)
  · exact .of_respond e

theorem closePort_resumes (s : State) : Resumes p allocs frees closePort s := by
  rcases hd : s.device.close with _ | ⟨r, d⟩
  · exact .of_wait (closePort_of_unanswered hd) (closePort_park _ _)
  by_cases ho : s.regs.owns = true
  · exact .of_eq ((closePort_of_answer hd).trans (if_pos ho))
      ((closePort_of_answer (Device.close_feed p hd)).trans (if_pos ho)) (closeFree_resumes p allocs frees _)
  · exact .of_respond ((closePort_of_answer hd).trans (if_neg ho))

theorem closeFlush_resumes (s : State) : Resumes p allocs frees closeFlush s := by
  rcases closeFlush_answers s with ⟨-, e⟩ | ⟨r, d, hd, e⟩
  · exact .of_wait e (closeFlush_park _ _)
  · exact .of_eq e (closeFlush_of_answer (Device.write_feed p hd)) (closePort_resumes p allocs frees _)

/-- The emit of PUTBITS resumes, if its loop does: the rest of the field fits the local `w` of R33, and the loop it goes
on with from the `WAIT` state has enough fuel. -/
theorem putbitsEmit_resumes {fuel w : Nat} (v : Word64) (s : State) (hw : w < 128) (hfuel : w < fuel)
    (hloop : ∀ u : State, u.regs.cnt = 8 → Resumes p allocs frees (putbitsLoop fuel w v) u) :
    Resumes p allocs frees (putbitsEmit (putbitsLoop fuel w v) w v) s := by
  rcases putbitsEmit_cases (loop := putbitsLoop fuel w v) (w := w) (v := v) (s := s) rfl with
    ⟨-, e⟩ | ⟨d, -, e⟩ | ⟨d, hd, e⟩
  · refine .of_wait e ?_
    change putbitsResume (BitVec.ofNat 7 w).toNat v _ = _
    rw [BitVec.toNat_ofNat, Nat.mod_eq_of_lt hw]
    exact putbitsEmit_park (fun u hu => putbitsLoop_park _ v _ fuel w u (by unfold loopFuel; omega) hfuel hu) ..
  · exact .of_respond e
  · refine .of_eq e ?_ (hloop _ rfl)
    rcases putbitsEmit_cases (loop := putbitsLoop fuel w v) (w := w) (v := v) (s := s.feed p allocs frees) rfl with
      ⟨hn, -⟩ | ⟨d', hn, -⟩ | ⟨d', hn, e'⟩
    all_goals cases (Device.write_feed p hd).symm.trans hn
    exact e'

/-- `fuel` suffices for `w` bits when the first turn moves `CNT` of them and every other turn 8. -/
theorem putbitsLoop_resumes (v : Word64) :
    ∀ (fuel w : Nat) (s : State), w < 128 → w + 1 < fuel + s.regs.cnt.toNat →
      Resumes p allocs frees (putbitsLoop fuel w v) s
  | 0, _, _, _, _ => fun t h => by simp [putbitsLoop] at h
  | fuel + 1, w, s, hw, hfuel => by
    by_cases hc : s.regs.cnt.toNat ≤ w
    · refine .of_eq ((putbitsLoop_succ fuel w v s).trans (if_pos hc))
        ((putbitsLoop_succ fuel w v (s.feed p allocs frees)).trans (if_pos hc)) ?_
      refine putbitsEmit_resumes p allocs frees v _ (by omega) (by omega) fun u hu => ?_
      exact putbitsLoop_resumes v fuel _ u (by omega) (by rw [hu]; change _ < fuel + 8; omega)
    · exact .of_respond ((putbitsLoop_succ fuel w v s).trans (if_neg hc))

/-- The fetch of GETBITS resumes, if its loop does. -/
theorem getbitsFetch_resumes {fuel w : Nat} (res : Word64) (s : State) (hw : w < 128) (hfuel : w < fuel)
    (hloop : ∀ u : State, u.regs.cnt = 8 → Resumes p allocs frees (getbitsLoop fuel w res) u) :
    Resumes p allocs frees (getbitsFetch (getbitsLoop fuel w res) w res) s := by
  cases he : s.regs.eofs with
  | true => exact .of_respond (getbitsFetch_of_eofs he)
  | false =>
    rcases getbitsFetch_cases (loop := getbitsLoop fuel w res) (w := w) (res := res) rfl he with
      ⟨-, e⟩ | ⟨d, -, e⟩ | ⟨d, -, e⟩ | ⟨b, d, hd, e⟩
    · refine .of_wait e ?_
      change getbitsResume (BitVec.ofNat 7 w).toNat res _ = _
      rw [BitVec.toNat_ofNat, Nat.mod_eq_of_lt hw]
      exact getbitsFetch_park (fun u hu => getbitsLoop_park _ _ fuel w res u (by unfold loopFuel; omega) hfuel hu) ..
    · exact .of_respond e
    · exact .of_respond e
    · refine .of_eq e ?_ (hloop _ rfl)
      rcases getbitsFetch_cases (loop := getbitsLoop fuel w res) (w := w) (res := res) (s := s.feed p allocs frees)
        rfl he with ⟨hn, -⟩ | ⟨d', hn, -⟩ | ⟨d', hn, -⟩ | ⟨b', d', hn, e'⟩
      all_goals cases (Device.read_feed p hd).symm.trans hn
      exact e'

theorem getbitsLoop_resumes :
    ∀ (fuel w : Nat) (res : Word64) (s : State), w < 128 → w + 1 < fuel + s.regs.cnt.toNat →
      Resumes p allocs frees (getbitsLoop fuel w res) s
  | 0, _, _, _, _, _ => fun t h => by simp [getbitsLoop] at h
  | fuel + 1, w, res, s, hw, hfuel => by
    by_cases hc : s.regs.cnt.toNat < w
    · refine .of_eq ((getbitsLoop_succ fuel w res s).trans (if_pos hc))
        ((getbitsLoop_succ fuel w res (s.feed p allocs frees)).trans (if_pos hc)) ?_
      refine getbitsFetch_resumes p allocs frees _ _ (by omega) (by omega) fun u hu => ?_
      exact getbitsLoop_resumes fuel _ _ u (by omega) (by rw [hu]; change _ < fuel + 8; omega)
    · exact .of_respond ((getbitsLoop_succ fuel w res s).trans (if_neg hc))

/-! Each instruction resumes. -/

theorem openSupplied_resumes (dir : Mode) (s : State) : Resumes p allocs frees (openSupplied dir) s := by
  rcases openSupplied_cases dir s with ⟨st, e⟩ | ⟨hB, hA⟩
  · exact .of_respond e
  · exact .of_eq (openSupplied_of_checks hB hA) (openSupplied_of_checks hB hA)
      (openPort_resumes p allocs frees dir false s.operandA s)

theorem execOpen_resumes (ws : Bool) (s : State) : Resumes p allocs frees (execOpen ws) s := by
  rcases execOpen_cases ws s with ⟨st, e⟩ | ⟨ha, path, m, dir, hp, hm, hd⟩
  · exact .of_respond e
  cases ws with
  | true =>
    exact .of_eq (execOpen_of_checks ha hp hm hd) (execOpen_of_checks (s := s.feed p allocs frees) ha hp hm hd)
      (openSupplied_resumes p allocs frees dir s)
  | false =>
    exact .of_eq (execOpen_of_checks ha hp hm hd) (execOpen_of_checks (s := s.feed p allocs frees) ha hp hm hd)
      (openAlloc_resumes p allocs frees dir s)

theorem execClose_resumes (s : State) : Resumes p allocs frees execClose s := by
  cases ha : s.regs.active with
  | false => exact .of_respond (execClose_of_closed ha)
  | true =>
    by_cases hp : s.regs.flushPending = true
    · exact .of_eq ((execClose_of_open ha).trans (if_pos hp))
        ((execClose_of_open (s := s.feed p allocs frees) ha).trans (if_pos hp))
        (closeFlush_resumes p allocs frees s)
    · exact .of_eq ((execClose_of_open ha).trans (if_neg hp))
        ((execClose_of_open (s := s.feed p allocs frees) ha).trans (if_neg hp))
        (closePort_resumes p allocs frees s)

theorem putbitPlace_resumes (s : State) : Resumes p allocs frees putbitPlace s := by
  by_cases hc : (s.regs.placeBit (operandBit s.operandA)).cnt = 0
  · exact .of_eq ((putbitPlace_eq s).trans (if_pos hc)) ((putbitPlace_eq _).trans (if_pos hc))
      (putbitEmit_resumes p allocs frees _)
  · exact .of_respond ((putbitPlace_eq s).trans (if_neg hc))

theorem execPutbit_resumes (s : State) : Resumes p allocs frees execPutbit s := by
  rcases execPutbit_cases s with ⟨st, e⟩ | hu
  · exact .of_respond e
  by_cases hc : s.regs.cnt = 0
  · intro t h
    rw [execPutbit_of_usable hu, if_pos hc] at h
    cases h
  · exact .of_eq ((execPutbit_of_usable hu).trans (if_neg hc))
      ((execPutbit_of_usable (s := s.feed p allocs frees) hu).trans (if_neg hc))
      (putbitPlace_resumes p allocs frees s)

theorem execPutbits_resumes (w : Nat) (s : State) : Resumes p allocs frees (execPutbits w) s := by
  rcases execPutbits_cases w s with ⟨st, e⟩ | ⟨hu, hw⟩
  · exact .of_respond e
  · exact .of_eq (execPutbits_of_usable hu hw) (execPutbits_of_usable hu hw)
      (putbitsLoop_resumes p allocs frees _ _ w s (by omega) (by unfold loopFuel; omega))

theorem execGetbit_resumes (s : State) : Resumes p allocs frees execGetbit s := by
  rcases execGetbit_cases s with ⟨st, e⟩ | hu
  · exact .of_respond e
  by_cases hc : s.regs.cnt = 0
  · exact .of_eq ((execGetbit_of_usable hu).trans (if_pos hc))
      ((execGetbit_of_usable (s := s.feed p allocs frees) hu).trans (if_pos hc))
      (getbitFetch_resumes p allocs frees s)
  · exact .of_respond ((execGetbit_of_usable hu).trans (if_neg hc))

theorem execGetbits_resumes (w : Nat) (s : State) : Resumes p allocs frees (execGetbits w) s := by
  rcases execGetbits_cases w s with ⟨st, e⟩ | ⟨hu, hw, hc⟩
  · exact .of_respond e
  · exact .of_eq (execGetbits_of_usable hu hw hc) (execGetbits_of_usable hu hw hc)
      (getbitsLoop_resumes p allocs frees _ w 0 s (by omega) (by unfold loopFuel; omega))

theorem execSeek_resumes (wh : Whence) (s : State) : Resumes p allocs frees (execSeek wh) s := by
  rcases execSeek_cases wh s with ⟨st, e⟩ | ⟨ha, hf⟩
  · exact .of_respond e
  · exact .of_eq (execSeek_of_unfaulted ha hf) (execSeek_of_unfaulted ha hf) (seekPort_resumes p allocs frees wh _)

theorem execTell_resumes (s : State) : Resumes p allocs frees execTell s := by
  rcases execTell_cases s with ⟨st, e⟩ | ⟨ha, hf⟩
  · exact .of_respond e
  · exact .of_eq (execTell_of_unfaulted ha hf) (execTell_of_unfaulted ha hf) (tellPort_resumes p allocs frees s)

theorem exec_resumes (i : Instr) (s : State) : Resumes p allocs frees (exec i) s := by
  cases i with
  | wssize => exact .of_respond (answer_eq _ s)
  | openFile ws => exact execOpen_resumes p allocs frees ws s
  | close => exact execClose_resumes p allocs frees s
  | putbit => exact execPutbit_resumes p allocs frees s
  | putbits w => exact execPutbits_resumes p allocs frees w s
  | getbit => exact execGetbit_resumes p allocs frees s
  | getbits w => exact execGetbits_resumes p allocs frees w s
  | seek wh => exact execSeek_resumes p allocs frees wh s
  | tell => exact execTell_resumes p allocs frees s

end

/-- Settles O14: the stages are cut at the transactions, and the `WAIT` state keeps all that its stage reads. -/
theorem waitingDoesNotChangeACommand : Obligations.WaitingDoesNotChangeACommand := by
  intro i s t p allocs frees hl h hne
  have hline : (t.feed p allocs frees).resetLine = false := (exec_hostSideKept h).resetLine.trans hl
  rw [step_of_noReset hline]
  exact exec_resumes p allocs frees i s t h hne

end Sys2Proof.Machine
end

section
/-! SUPPORT. The engine around a command: accepting one, handing over its response, reset, and the checks on a CLOSED
engine. -/

namespace Sys2Proof.Machine

open Sys2Proof

theorem fsmStep_of_idle {s : State} {c : Command} {rest : List Command} (hf : s.fsm = .idle)
    (ho : s.offered = c :: rest) : fsmStep s = runLatched (s.accept c rest) := by
  simp [fsmStep, idleStep, hf, ho]

theorem fsmStep_of_resp {s : State} (hf : s.fsm = .resp) :
    fsmStep s = .next (if s.hostReady then s.takeResponse else s) := by
  simp [fsmStep, respStep, hf]

theorem State.exchange_eq {s : State} {c : Command} {r : Response} (hl : s.latched = some c)
    (hr : s.response = some r) : s.exchange = [⟨c, r⟩] := by
  simp [State.exchange, hl, hr]

/-- A response with value 0 and nothing else is what R175 calls a command turned away. -/
theorem State.respond_zero_eq_rejected (st : Status) (s : State) : s.respond st 0 = s.rejected st := by
  simp [State.respond, State.rejected, State.after]

/-- Settles O6. -/
theorem stepRunsTheDecodedCommand : Obligations.StepRunsTheDecodedCommand := by
  intro s c rest i hl hf ho hd
  rw [step_of_noReset hl, fsmStep_of_idle hf ho]
  exact runLatched_legal rfl hd

/-- Settles O9. -/
theorem responseIsTakenOnceAndFreesTheEngine : Obligations.ResponseIsTakenOnceAndFreesTheEngine := by
  intro s c r hl hf hc hr
  rw [step_of_noReset hl, fsmStep_of_resp hf]
  constructor
  · intro hready
    rw [if_pos hready, State.takeResponse, State.exchange_eq hc hr]
  · intro hready
    rw [hready]
    rfl

/-- Settles O10: the step is `hardwareReset`, before the FSM. -/
theorem resetDropsTheCommandAndIssuesNothing : Obligations.ResetDropsTheCommandAndIssuesNothing := fun s hl =>
  ⟨s.hardwareReset, step_of_resetLine hl, rfl, rfl, rfl, rfl, rfl, rfl, rfl, rfl, rfl, rfl, rfl, rfl, rfl, rfl, rfl,
    rfl, rfl⟩

/-- Settles O11. -/
theorem powerOnValues : Obligations.PowerOnValues :=
  ⟨rfl, rfl, rfl, rfl, rfl, rfl, rfl, rfl, rfl, rfl, fun s hl =>
    ⟨s.hardwareReset, step_of_resetLine hl, rfl, rfl, rfl⟩⟩

/-- Settles O27: `ACTIVE` is the first check of all six. -/
theorem closedEngineRejectsStreamCommands : Obligations.ClosedEngineRejectsStreamCommands := by
  intro s w wh ha
  rw [← State.respond_zero_eq_rejected]
  refine ⟨?_, ?_, ?_, ?_, ?_, ?_⟩
  · simp [exec, execPutbit, ha]
  · simp [exec, execPutbits, ha]
  · simp [exec, execGetbit, ha]
  · simp [exec, execGetbits, ha]
  · simp [exec, execSeek, ha]
  · simp [exec, execTell, ha]

end Sys2Proof.Machine
end

section
/-! SUPPORT. The transactions of a command: one in flight comes first and hangs the engine while it is unanswered (R43),
and what a stage and an instruction issue at most, in the order of the pseudocode (R56, R92, R98). -/

namespace Sys2Proof.Machine

open Sys2Proof

/-! ### What is issued between two states -/

/-- Between `s` and `t` no transactions are completed but some of the kinds `ks`, in that order. -/
def IssuesAtMost (ks : List TransactionKind) (s t : State) : Prop :=
  ∃ new, t.traffic = s.traffic ++ new ∧ (new.map Transaction.kind).Sublist ks

theorem IssuesAtMost.of_traffic_eq {ks : List TransactionKind} {s t : State} (h : t.traffic = s.traffic) :
    IssuesAtMost ks s t :=
  ⟨[], by simp [h], List.nil_sublist ks⟩

theorem IssuesAtMost.mono {ks ks' : List TransactionKind} {s t : State} (h : IssuesAtMost ks s t)
    (hks : ks.Sublist ks') : IssuesAtMost ks' s t := by
  obtain ⟨new, ht, hn⟩ := h
  exact ⟨new, ht, hn.trans hks⟩

/-- What a loop makes, from the bound on its number and its one kind. -/
theorem IssuesAtMost.of_replicate {k : TransactionKind} {n : Nat} {s t : State}
    (h : ∃ new, t.traffic = s.traffic ++ new ∧ (∀ x ∈ new, x.kind = k) ∧ new.length ≤ n) :
    IssuesAtMost (List.replicate n k) s t := by
  obtain ⟨new, ht, hk, hn⟩ := h
  exact ⟨new, ht, kinds_sublist_replicate hk hn⟩

/-! ### The transaction a stage begins with -/

/-- The kind of a request. -/
def Request.kind : Request → TransactionKind
  | .alloc _ => .alloc
  | .free _ => .free
  | .portOpen _ _ _ => .portOpen
  | .portRead => .portRead
  | .portWrite _ => .portWrite
  | .portSeek _ _ => .portSeek
  | .portTell => .portTell
  | .portClose => .portClose

theorem Transaction.request_kind (x : Transaction) : x.request.kind = x.kind := by cases x <;> rfl

/-- `o`, the outcome of a stage entered in `s`, begins with the request `q`: while `q` has no answer it is `s` in the
`WAIT` state `f`, and once there is one `q` is completed first and then at most the kinds `ks` follow. -/
def BeginsWith (q : Request) (ks : List TransactionKind) (f : Fsm) (s : State) (o : Outcome) : Prop :=
  (s.answers q = false ∧ o = .next (s.park f)) ∨
  (s.answers q = true ∧ ∃ x u, x.request = q ∧ u.traffic = s.traffic ++ [x] ∧ ∀ t, o = .next t → IssuesAtMost ks u t)

section

variable {q : Request} {ks : List TransactionKind} {f : Fsm} {s : State} {o : Outcome}

theorem BeginsWith.of_unanswered (hq : s.answers q = false) (ho : o = .next (s.park f)) : BeginsWith q ks f s o :=
  .inl ⟨hq, ho⟩

/-- The stage ends with its one transaction. -/
theorem BeginsWith.of_answered (x : Transaction) {t : State} (hq : s.answers q = true) (hx : x.request = q)
    (ht : t.traffic = s.traffic ++ [x]) (ho : o = .next t) : BeginsWith q ks f s o := by
  refine .inr ⟨hq, x, t, hx, ht, fun t' h => ?_⟩
  cases ho.symm.trans h
  exact .of_traffic_eq rfl

/-- After its transaction the stage goes on from `u`. -/
theorem BeginsWith.of_rest (x : Transaction) (u : State) (hq : s.answers q = true) (hx : x.request = q)
    (hu : u.traffic = s.traffic ++ [x]) (hrest : ∀ t, o = .next t → IssuesAtMost ks u t) : BeginsWith q ks f s o :=
  .inr ⟨hq, x, u, hx, hu, hrest⟩

theorem BeginsWith.mono {ks' : List TransactionKind} (h : BeginsWith q ks f s o) (hks : ks.Sublist ks') :
    BeginsWith q ks' f s o := by
  obtain h | ⟨hq, x, u, hx, hu, hrest⟩ := h
  · exact .inl h
  · exact .inr ⟨hq, x, u, hx, hu, fun t ht => (hrest t ht).mono hks⟩

theorem BeginsWith.waits (h : BeginsWith q ks f s o) (hq : s.answers q = false) : o = .next (s.park f) := by
  obtain ⟨-, ho⟩ | ⟨hq', -⟩ := h
  · exact ho
  · exact absurd (hq.symm.trans hq') Bool.false_ne_true

theorem BeginsWith.serves {t : State} (h : BeginsWith q ks f s o) (hq : s.answers q = true) (ho : o = .next t) :
    ∃ x more, t.traffic = s.traffic ++ x :: more ∧ x.request = q ∧ (more.map Transaction.kind).Sublist ks := by
  obtain ⟨hq', -⟩ | ⟨-, x, u, hx, hu, hrest⟩ := h
  · exact absurd (hq'.symm.trans hq) Bool.false_ne_true
  · obtain ⟨more, ht, hmore⟩ := hrest t ho
    exact ⟨x, more, by rw [ht, hu, List.append_assoc]; rfl, hx, hmore⟩

theorem BeginsWith.issuesAtMost {t : State} (h : BeginsWith q ks f s o) (ho : o = .next t) :
    IssuesAtMost (q.kind :: ks) s t := by
  cases hq : s.answers q with
  | false =>
    cases (h.waits hq).symm.trans ho
    exact .of_traffic_eq rfl
  | true =>
    obtain ⟨x, more, ht, rfl, hmore⟩ := h.serves hq ho
    exact ⟨x :: more, ht, by simpa [Transaction.request_kind] using hmore⟩

end

/-! ### The stages of the write path -/

theorem putbitEmit_beginsWith (s : State) :
    BeginsWith (.portWrite s.regs.buf) [] (.waitWrite .putbit) s (putbitEmit s) := by
  rcases putbitEmit_cases s with ⟨hd, e⟩ | ⟨d, hd, e⟩ | ⟨d, hd, e⟩
  · exact .of_unanswered (by simp [State.answers, hd]) e
  · exact .of_answered (.portWrite s.regs.buf .err) (by simp [State.answers, hd]) rfl rfl e
  · exact .of_answered (.portWrite s.regs.buf .ok) (by simp [State.answers, hd]) rfl rfl e

theorem putbitsLoop_issues {fuel w : Nat} {v : Word64} {s t : State} (h1 : 1 ≤ s.regs.cnt.toNat)
    (h8 : s.regs.cnt.toNat ≤ 8) (h : putbitsLoop fuel w v s = .next t) :
    IssuesAtMost (List.replicate (emitsMade w s.regs.cnt.toNat) .portWrite) s t :=
  .of_replicate (putbitsLoop_traffic fuel w v s t h1 h8 h)

theorem putbitsResume_beginsWith (w : BitVec 7) (v : Word64) (s : State) :
    BeginsWith (.portWrite s.regs.buf) (kindsAfterWrite (.putbits w v)) (.waitWrite (.putbits w v)) s
      (putbitsResume w.toNat v s) := by
  rcases putbitsEmit_cases (rfl : putbitsResume w.toNat v s = _) with ⟨hd, e⟩ | ⟨d, hd, e⟩ | ⟨d, hd, e⟩
  · rw [BitVec.ofNat_toNat, BitVec.setWidth_eq] at e
    exact .of_unanswered (by simp [State.answers, hd]) e
  · exact .of_answered (.portWrite s.regs.buf .err) (by simp [State.answers, hd]) rfl rfl e
  · refine .of_rest (.portWrite s.regs.buf .ok)
      ((s.transacted d (.portWrite s.regs.buf .ok)).setRegs s.regs.emitted) (by simp [State.answers, hd]) rfl rfl
      fun t ht => ?_
    exact putbitsLoop_issues (by simp) (by simp) (e.symm.trans ht)

/-! ### The stages of the read path -/

theorem getbitFetch_beginsWith {s : State} (he : s.regs.eofs = false) :
    BeginsWith .portRead [] (.waitRead .getbit) s (getbitFetch s) := by
  rcases getbitFetch_cases he with ⟨hd, e⟩ | ⟨d, hd, e⟩ | ⟨d, hd, e⟩ | ⟨b, d, hd, e⟩
  · exact .of_unanswered (by simp [State.answers, hd]) e
  · exact .of_answered (.portRead .eof) (by simp [State.answers, hd]) rfl rfl e
  · exact .of_answered (.portRead .err) (by simp [State.answers, hd]) rfl rfl e
  · exact .of_answered (.portRead (.byte b)) (by simp [State.answers, hd]) rfl rfl e

theorem getbitsLoop_issues {fuel w : Nat} {res : Word64} {s t : State} (he : s.regs.eofs = false)
    (h8 : s.regs.cnt.toNat ≤ 8) (h : getbitsLoop fuel w res s = .next t) :
    IssuesAtMost (List.replicate (fetchesNeeded w s.regs.cnt.toNat) .portRead) s t :=
  .of_replicate (getbitsLoop_traffic fuel w res s t he h8 h)

theorem getbitsResume_beginsWith (w : BitVec 7) (res : Word64) {s : State} (he : s.regs.eofs = false) :
    BeginsWith .portRead (kindsAfterRead (.getbits w res)) (.waitRead (.getbits w res)) s
      (getbitsResume w.toNat res s) := by
  rcases getbitsFetch_cases (rfl : getbitsResume w.toNat res s = _) he with
    ⟨hd, e⟩ | ⟨d, hd, e⟩ | ⟨d, hd, e⟩ | ⟨b, d, hd, e⟩
  · rw [BitVec.ofNat_toNat, BitVec.setWidth_eq] at e
    exact .of_unanswered (by simp [State.answers, hd]) e
  · exact .of_answered (.portRead .eof) (by simp [State.answers, hd]) rfl rfl e
  · exact .of_answered (.portRead .err) (by simp [State.answers, hd]) rfl rfl e
  · refine .of_rest (.portRead (.byte b)) ((s.transacted d (.portRead (.byte b))).setRegs (s.regs.load b 8))
      (by simp [State.answers, hd]) rfl rfl fun t ht => ?_
    exact getbitsLoop_issues (by exact he) (by simp) (e.symm.trans ht)

/-! ### The stages of SEEK and TELL -/

theorem seekPort_beginsWith (wh : Whence) (s : State) :
    BeginsWith (.portSeek (operandOffset s.operandA) wh) [] (.waitSeek wh) s (seekPort wh s) := by
  rcases seekPort_cases wh s with ⟨hd, e⟩ | ⟨d, hd, e⟩ | ⟨r, d, st, hd, e⟩
  · exact .of_unanswered (by simp [State.answers, hd]) e
  · exact .of_answered (.portSeek _ wh .ok) (by simp [State.answers, hd]) rfl rfl e
  · exact .of_answered (.portSeek _ wh r) (by simp [State.answers, hd]) rfl rfl e

theorem tellPort_beginsWith (s : State) : BeginsWith .portTell [] .waitTell s (tellPort s) := by
  rcases tellPort_cases s with ⟨hd, e⟩ | ⟨r, d, st, v, hd, e⟩
  · exact .of_unanswered (by simp [State.answers, hd]) e
  · exact .of_answered (.portTell r) (by simp [State.answers, hd]) rfl rfl e

/-! ### The stages of OPEN -/

theorem openFree_beginsWith (base : Word64) (s : State) :
    BeginsWith (.free base) [] (.waitFree (.failedOpen base)) s (openFree base s) := by
  rcases openFree_cases base s with ⟨hm, e⟩ | ⟨m, hm, e⟩
  · exact .of_unanswered (by simp [State.answers, hm]) e
  · exact .of_answered (.free base) (by simp [State.answers, hm]) rfl rfl e

/-- Only an owned workspace is released when `PortOpen` fails (R97). -/
theorem openPort_beginsWith (dir : Mode) (owns : Bool) (base : Word64) (s : State) :
    BeginsWith (.portOpen s.openPath dir s.openRest) (if owns then [.free] else []) (.waitOpen dir owns base) s
      (openPort dir owns base s) := by
  rcases hd : s.device.openFile s.openPath dir with _ | ⟨_ | _, d⟩
  · exact .of_unanswered (by simp [State.answers, hd]) (openPort_of_unanswered hd)
  · exact .of_answered (.portOpen s.openPath dir s.openRest .ok) (by simp [State.answers, hd]) rfl rfl
      (openPort_of_ok hd)
  · refine .of_rest (.portOpen s.openPath dir s.openRest .err)
      ((s.transacted d (.portOpen s.openPath dir s.openRest .err)).bind none) (by simp [State.answers, hd]) rfl rfl
      fun t ht => ?_
    rw [openPort_of_err hd] at ht
    cases owns with
    | true => exact (openFree_beginsWith base _).issuesAtMost ht
    | false =>
      cases ht
      exact .of_traffic_eq rfl

theorem openAlloc_beginsWith (dir : Mode) (s : State) :
    BeginsWith (.alloc s.cfg.workspaceSize) [.portOpen, .free] (.waitAlloc dir) s (openAlloc dir s) := by
  rcases hm : s.allocator.alloc s.cfg.workspaceSize with _ | ⟨a | _, m⟩
  · exact .of_unanswered (by simp [State.answers, hm]) (openAlloc_of_unanswered hm)
  · refine .of_rest (.alloc s.cfg.workspaceSize (.addr a)) (s.allocated m (.alloc s.cfg.workspaceSize (.addr a)))
      (by simp [State.answers, hm]) rfl rfl fun t ht => ?_
    exact (openPort_beginsWith dir true a _).issuesAtMost ((openAlloc_of_addr hm).symm.trans ht)
  · exact .of_answered (.alloc s.cfg.workspaceSize .fail) (by simp [State.answers, hm]) rfl rfl (openAlloc_of_fail hm)

/-! ### The stages of CLOSE -/

theorem closeFree_beginsWith (s : State) :
    BeginsWith (.free s.regs.wsbase) [] (.waitFree .close) s (closeFree s) := by
  rcases closeFree_cases s with ⟨hm, e⟩ | ⟨m, hm, e⟩
  · exact .of_unanswered (by simp [State.answers, hm]) e
  · exact .of_answered (.free s.regs.wsbase) (by simp [State.answers, hm]) rfl rfl e

theorem closePort_beginsWith (s : State) : BeginsWith .portClose [.free] .waitClose s (closePort s) := by
  rcases hd : s.device.close with _ | ⟨r, d⟩
  · exact .of_unanswered (by simp [State.answers, hd]) (closePort_of_unanswered hd)
  · refine .of_rest (.portClose r) ((s.transacted d (.portClose r)).bind none) (by simp [State.answers, hd]) rfl rfl
      fun t ht => ?_
    rw [closePort_of_answer hd] at ht
    split at ht
    · exact (closeFree_beginsWith _).issuesAtMost ht
    · cases ht
      exact .of_traffic_eq rfl

theorem closeFlush_beginsWith (s : State) :
    BeginsWith (.portWrite s.regs.buf) [.portClose, .free] (.waitWrite .close) s (closeFlush s) := by
  rcases closeFlush_answers s with ⟨hd, e⟩ | ⟨r, d, hd, e⟩
  · exact .of_unanswered (by simp [State.answers, hd]) e
  · refine .of_rest (.portWrite s.regs.buf r) (s.transacted d (.portWrite s.regs.buf r)) (by simp [State.answers, hd])
      rfl rfl fun t ht => ?_
    exact (closePort_beginsWith _).issuesAtMost (e.symm.trans ht)

/-! ### The transaction in flight (R43) -/

/-- A `PortRead` is in flight only on a stream that has not met end-of-file (R48). -/
theorem State.eofs_of_waitRead {s : State} {k : ReadFor} (hf : s.fsm = .waitRead k) (hs : s.inv = true) :
    s.regs.eofs = false := by
  rw [← State.park_self hf] at hs
  have hfits : s.regs.readWaitOk k = true := ((State.inv_park_iff rfl s).1 hs).1
  have hstream : s.regs.streaming .read = true := by
    cases k <;> simp only [Regs.readWaitOk, Bool.and_eq_true] at hfits
    · exact hfits.1
    · exact hfits.1.1.1
  exact ((Regs.streaming_iff ..).1 hstream).2.1

/-- In a `WAIT` state the step begins with the request in flight and goes on with what the pseudocode has to come. -/
theorem fsmStep_beginsWith {s : State} {q : Request} (hs : s.inv = true) (hq : s.outstanding = some q) :
    BeginsWith q (kindsAfterWait s.fsm) s.fsm s (fsmStep s) := by
  cases hf : s.fsm <;> simp only [State.outstanding, hf] at hq <;> simp only [fsmStep, hf]
  case idle => cases hq
  case exec => cases hq
  case resp => cases hq
  case waitAlloc dir => cases hq; exact openAlloc_beginsWith dir s
  case waitOpen dir owns base =>
    cases hq
    exact (openPort_beginsWith dir owns base s).mono (by cases owns <;> simp [kindsAfterWait])
  case waitWrite k =>
    cases hq
    cases k with
    | putbit => exact putbitEmit_beginsWith s
    | putbits w v => exact putbitsResume_beginsWith w v s
    | close => exact closeFlush_beginsWith s
  case waitRead k =>
    cases hq
    have he := State.eofs_of_waitRead hf hs
    cases k with
    | getbit => exact getbitFetch_beginsWith he
    | getbits w res => exact getbitsResume_beginsWith w res he
  case waitSeek wh => cases hq; exact seekPort_beginsWith wh s
  case waitTell => cases hq; exact tellPort_beginsWith s
  case waitClose => cases hq; exact closePort_beginsWith s
  case waitFree k =>
    cases k with
    | failedOpen base => cases hq; exact openFree_beginsWith base s
    | close => cases hq; exact closeFree_beginsWith s

/-- Settles O12: the `WAIT` state the step would enter is the one it is in. -/
theorem unansweredTransactionHangsTheEngine : Obligations.UnansweredTransactionHangsTheEngine := by
  intro s q hs hl hq hnone
  rw [step_of_noReset hl, (fsmStep_beginsWith hs hq).waits hnone, State.park_self rfl]

/-- Settles O13. -/
theorem answeredTransactionComesFirst : Obligations.AnsweredTransactionComesFirst := by
  intro s t q hs hl hq hsome h
  rw [step_of_noReset hl] at h
  exact (fsmStep_beginsWith hs hq).serves hsome h

/-! ### What an instruction issues (R56, R92, R98, R150, R154) -/

/-- Between `s` and `t` no transactions are completed but those the rules give the instruction, and no more in all. -/
def IssuesWithin (i : Instr) (s t : State) : Prop :=
  ∃ new, t.traffic = s.traffic ++ new ∧ (new.map Transaction.kind).Sublist (kindsOf s.regs.cnt.toNat i) ∧
    new.length ≤ mostTransactions i

theorem IssuesWithin.of_traffic_eq {i : Instr} {s t : State} (h : t.traffic = s.traffic) : IssuesWithin i s t :=
  ⟨[], by simp [h], List.nil_sublist _, Nat.zero_le _⟩

theorem IssuesWithin.of_issuesAtMost {i : Instr} {s t : State}
    (hn : (kindsOf s.regs.cnt.toNat i).length ≤ mostTransactions i)
    (h : IssuesAtMost (kindsOf s.regs.cnt.toNat i) s t) : IssuesWithin i s t := by
  obtain ⟨new, ht, hnew⟩ := h
  have hlen : new.length ≤ (kindsOf s.regs.cnt.toNat i).length := by simpa using hnew.length_le
  exact ⟨new, ht, hnew, hlen.trans hn⟩

theorem execOpen_issuesWithin {ws : Bool} {s t : State} (h : execOpen ws s = .next t) :
    IssuesWithin (.openFile ws) s t := by
  rcases execOpen_cases ws s with ⟨st, e⟩ | ⟨ha, path, m, dir, hp, hm, hd⟩
  · cases e.symm.trans h
    exact .of_traffic_eq rfl
  rw [execOpen_of_checks ha hp hm hd] at h
  cases ws with
  | false => exact .of_issuesAtMost (Nat.le_refl 3) ((openAlloc_beginsWith dir s).issuesAtMost h)
  | true =>
    rcases openSupplied_cases dir s with ⟨st, e⟩ | ⟨hB, hA⟩
    · cases e.symm.trans h
      exact .of_traffic_eq rfl
    · have hport := (openSupplied_of_checks hB hA).symm.trans h
      exact .of_issuesAtMost (Nat.le_refl 1) ((openPort_beginsWith dir false s.operandA s).issuesAtMost hport)

theorem execClose_issuesWithin {s t : State} (h : execClose s = .next t) : IssuesWithin .close s t := by
  cases ha : s.regs.active with
  | false =>
    cases (execClose_of_closed ha).symm.trans h
    exact .of_traffic_eq rfl
  | true =>
    rw [execClose_of_open ha] at h
    split at h
    · exact .of_issuesAtMost (Nat.le_refl 3) ((closeFlush_beginsWith s).issuesAtMost h)
    · have hport := (closePort_beginsWith s).issuesAtMost h
      exact .of_issuesAtMost (Nat.le_refl 3) (hport.mono (List.sublist_cons_self ..))

theorem execPutbit_issuesWithin {s t : State} (h : execPutbit s = .next t) : IssuesWithin .putbit s t := by
  rcases execPutbit_cases s with ⟨st, e⟩ | hu
  · cases e.symm.trans h
    exact .of_traffic_eq rfl
  rw [execPutbit_of_usable hu] at h
  split at h
  · cases h
  rw [putbitPlace_eq] at h
  split at h
  · have hemit := (putbitEmit_beginsWith _).issuesAtMost h
    exact .of_issuesAtMost (Nat.le_refl 1) hemit
  · cases h
    exact .of_traffic_eq rfl

/-- A field of 64 bits and the 7 bits pending before it complete at most 8 bytes. -/
theorem execPutbits_issuesWithin {w : Nat} {s t : State} (hb : s.regs.betweenCommands = true)
    (h : execPutbits w s = .next t) : IssuesWithin (.putbits w) s t := by
  rcases execPutbits_cases w s with ⟨st, e⟩ | ⟨hu, hw⟩
  · cases e.symm.trans h
    exact .of_traffic_eq rfl
  · obtain ⟨-, h1, h8, -⟩ := Regs.write_laws hb hu
    rw [execPutbits_of_usable hu hw] at h
    refine .of_issuesAtMost ?_ (putbitsLoop_issues h1 h8 h)
    simp only [kindsOf, List.length_replicate, emitsMade, mostTransactions]
    omega

theorem execGetbit_issuesWithin {s t : State} (h : execGetbit s = .next t) : IssuesWithin .getbit s t := by
  rcases execGetbit_cases s with ⟨st, e⟩ | hu
  · cases e.symm.trans h
    exact .of_traffic_eq rfl
  rw [execGetbit_of_usable hu] at h
  split at h
  · cases he : s.regs.eofs with
    | true =>
      cases (getbitFetch_of_eofs he).symm.trans h
      exact .of_traffic_eq rfl
    | false => exact .of_issuesAtMost (Nat.le_refl 1) ((getbitFetch_beginsWith he).issuesAtMost h)
  · cases h
    exact .of_traffic_eq rfl

/-- A field of 64 bits needs at most 8 bytes. -/
theorem execGetbits_issuesWithin {w : Nat} {s t : State} (hb : s.regs.betweenCommands = true)
    (h : execGetbits w s = .next t) : IssuesWithin (.getbits w) s t := by
  rcases execGetbits_cases w s with ⟨st, e⟩ | ⟨hu, hw, hc⟩
  · cases e.symm.trans h
    exact .of_traffic_eq rfl
  · obtain ⟨h8, heof⟩ := Regs.read_laws hb
    have he : s.regs.eofs = false := Bool.eq_false_iff.2 fun he => Bool.eq_false_iff.1 (heof (hc he)) he
    rw [execGetbits_of_usable hu hw hc] at h
    refine .of_issuesAtMost ?_ (getbitsLoop_issues he h8 h)
    simp only [kindsOf, List.length_replicate, fetchesNeeded, mostTransactions]
    omega

theorem execSeek_issuesWithin {wh : Whence} {s t : State} (h : execSeek wh s = .next t) :
    IssuesWithin (.seek wh) s t := by
  rcases execSeek_cases wh s with ⟨st, e⟩ | ⟨ha, hf⟩
  · cases e.symm.trans h
    exact .of_traffic_eq rfl
  · have hport := (seekPort_beginsWith wh _).issuesAtMost ((execSeek_of_unfaulted ha hf).symm.trans h)
    exact .of_issuesAtMost (Nat.le_refl 1) hport

theorem execTell_issuesWithin {s t : State} (h : execTell s = .next t) : IssuesWithin .tell s t := by
  rcases execTell_cases s with ⟨st, e⟩ | ⟨ha, hf⟩
  · cases e.symm.trans h
    exact .of_traffic_eq rfl
  · have hport := (tellPort_beginsWith s).issuesAtMost ((execTell_of_unfaulted ha hf).symm.trans h)
    exact .of_issuesAtMost (Nat.le_refl 1) hport

/-- Settles O22: an instruction turned away issues nothing, and one let through issues what its first stage does. -/
theorem transactionsOfEachCommandAreBounded : Obligations.TransactionsOfEachCommandAreBounded := by
  intro i s t hb h
  change IssuesWithin i s t
  cases i with
  | wssize => cases h; exact .of_traffic_eq rfl
  | openFile ws => exact execOpen_issuesWithin h
  | close => exact execClose_issuesWithin h
  | putbit => exact execPutbit_issuesWithin h
  | putbits w => exact execPutbits_issuesWithin hb h
  | getbit => exact execGetbit_issuesWithin h
  | getbits w => exact execGetbits_issuesWithin hb h
  | seek wh => exact execSeek_issuesWithin h
  | tell => exact execTell_issuesWithin h

end Sys2Proof.Machine
end

section
/-! SUPPORT. Where an entity is placed: alignment (R91, R93), and that an OPEN answered Ok holds a workspace inside the
address space, whether the host or the allocator gave it (R51, R94). -/

namespace Sys2Proof.Machine

open Sys2Proof

/-! ### Alignment (R91, R93) -/

theorem dvd_alignUp16 (a : Nat) : 16 ∣ alignUp16 a := Nat.dvd_mul_left ..

theorem le_alignUp16 (a : Nat) : a ≤ alignUp16 a := by
  unfold alignUp16
  omega

/-- The slack of `WS_ALIGN` bytes is never used up by the alignment. -/
theorem alignUp16_lt (a : Nat) : alignUp16 a < a + Config.wsAlign := by
  unfold alignUp16 Config.wsAlign
  omega

theorem State.workspaceFits_iff (s : State) (base : Word64) :
    s.workspaceFits base = true ↔ base.toNat + s.cfg.workspaceSize ≤ 2 ^ 64 :=
  decide_eq_true_iff

/-- The handle of a workspace inside the address space is the aligned start itself: nothing is cut (R93). -/
theorem placementHandle_toNat {cfg : Config} {base : Word64} (h : base.toNat + cfg.workspaceSize ≤ 2 ^ 64) :
    (placementHandle base).toNat = alignUp16 base.toNat := by
  have hlt := alignUp16_lt base.toNat
  rw [placementHandle, BitVec.toNat_ofNat, Nat.mod_eq_of_lt]
  unfold Config.workspaceSize at h
  omega

/-! ### An OPEN answered Ok -/

/-- An Ok response answers the handle of the workspace that is held, which lies inside the address space. -/
def State.AnswersPlacement (t : State) : Prop :=
  t.fsm = .resp → ∀ v, t.response = some ⟨.ok, v⟩ →
    v = placementHandle t.regs.wsbase ∧ t.workspaceFits t.regs.wsbase = true

theorem answersPlacement_of_error {s : State} {st : Status} (hst : st ≠ .ok) (v : Word64) :
    (s.respond st v).AnswersPlacement := by
  intro _ v' hv
  cases hv
  exact absurd rfl hst

theorem answersPlacement_of_wait {s : State} {f : Fsm} (hf : f ≠ .resp) : (s.park f).AnswersPlacement :=
  fun h => absurd h hf

theorem openFree_answersPlacement {base : Word64} {s t : State} (h : openFree base s = .next t) :
    t.AnswersPlacement := by
  rcases openFree_cases base s with ⟨-, e⟩ | ⟨m, -, e⟩ <;> cases e.symm.trans h
  · exact answersPlacement_of_wait (by simp)
  · exact answersPlacement_of_error (by decide) 0

theorem openPort_answersPlacement {dir : Mode} {owns : Bool} {base : Word64} {s t : State}
    (hfits : s.workspaceFits base = true) (h : openPort dir owns base s = .next t) : t.AnswersPlacement := by
  rcases hd : s.device.openFile s.openPath dir with _ | ⟨_ | _, d⟩
  · cases (openPort_of_unanswered hd).symm.trans h
    exact answersPlacement_of_wait (by simp)
  · cases (openPort_of_ok hd).symm.trans h
    intro _ v hv
    cases hv
    exact ⟨rfl, hfits⟩
  · rw [openPort_of_err hd] at h
    split at h
    · exact openFree_answersPlacement h
    · cases h
      exact answersPlacement_of_error (by decide) 0

/-- An allocated workspace lies inside the address space by the law of R51. -/
theorem openAlloc_answersPlacement {dir : Mode} {s t : State} (h : openAlloc dir s = .next t) :
    t.AnswersPlacement := by
  rcases hm : s.allocator.alloc s.cfg.workspaceSize with _ | ⟨a | _, m⟩
  · cases (openAlloc_of_unanswered hm).symm.trans h
    exact answersPlacement_of_wait (by simp)
  · rw [openAlloc_of_addr hm] at h
    have hfits : s.workspaceFits a = true := (s.workspaceFits_iff a).2 (allocated_block_fits hm)
    exact openPort_answersPlacement (s := s.allocated m _) hfits h
  · cases (openAlloc_of_fail hm).symm.trans h
    exact answersPlacement_of_error (by decide) 0

/-- A supplied workspace lies inside the address space by the checks of R94. -/
theorem openSupplied_answersPlacement {dir : Mode} {s t : State} (h : openSupplied dir s = .next t) :
    t.AnswersPlacement := by
  unfold openSupplied at h
  split at h
  · cases h
    exact answersPlacement_of_error (by decide) 0
  split at h
  · cases h
    exact answersPlacement_of_error (by decide) 0
  · exact openPort_answersPlacement ((s.workspaceFits_iff s.operandA).2 (by omega)) h

theorem execOpen_answersPlacement {ws : Bool} {s t : State} (h : execOpen ws s = .next t) : t.AnswersPlacement := by
  have hturnedAway {u : State} (hu : raise .invalidArgument s = .next u) : u.AnswersPlacement := by
    cases hu
    exact answersPlacement_of_error (by decide) 0
  unfold execOpen at h
  split at h
  · exact hturnedAway h
  split at h
  · exact hturnedAway h
  · exact hturnedAway h
  split at h
  · exact hturnedAway h
  split at h
  · exact openSupplied_answersPlacement h
  · exact openAlloc_answersPlacement h

/-- Settles O37: the handle is the aligned start of a workspace that fits, and the slack covers the alignment. -/
theorem openedEntityLiesInsideTheAddressSpace : Obligations.OpenedEntityLiesInsideTheAddressSpace := by
  intro s t ws v h hf hr
  obtain ⟨rfl, hfits⟩ := execOpen_answersPlacement h hf v hr
  have hspace := (t.workspaceFits_iff _).1 hfits
  have hlt := alignUp16_lt t.regs.wsbase.toNat
  rw [placementHandle_toNat hspace]
  refine ⟨dvd_alignUp16 _, le_alignUp16 _, ?_, hspace⟩
  unfold Config.workspaceSize at hspace
  omega

end Sys2Proof.Machine
end

section
/-! SUPPORT. The command word as five fields (R72): packing and reading them, what the decoder asks of them (R77, R78),
and which rows of the opcode table a word matches. -/

namespace Sys2Proof

/-! ### The fields of a word -/

theorem opField_lt (c : CmdWord) : opField c < 16 := Nat.mod_lt _ (by decide)

theorem widthField_lt (c : CmdWord) : widthField c < 256 := Nat.mod_lt _ (by decide)

theorem whenceField_lt (c : CmdWord) : whenceField c < 4 := Nat.mod_lt _ (by decide)

theorem workspaceField_lt (c : CmdWord) : workspaceField c < 2 := Nat.mod_lt _ (by decide)

theorem reservedField_lt (c : CmdWord) : reservedField c < 2 ^ 17 := by
  have := c.isLt
  unfold reservedField
  omega

/-- The five fields cover the word. -/
theorem word_eq_of_fields_eq {c d : CmdWord} (hop : opField c = opField d) (hw : widthField c = widthField d)
    (hwh : whenceField c = whenceField d) (hws : workspaceField c = workspaceField d)
    (hr : reservedField c = reservedField d) : c = d := by
  simp only [opField, widthField, whenceField, workspaceField, reservedField] at hop hw hwh hws hr
  exact BitVec.eq_of_toNat_eq (by omega)

theorem packFields_toNat {op w wh ws : Nat} (hop : op < 16) (hw : w < 256) (hwh : wh < 4) (hws : ws < 2) :
    (packFields op w wh ws).toNat = op + w * 2 ^ 4 + wh * 2 ^ 12 + ws * 2 ^ 14 :=
  Nat.mod_eq_of_lt (by omega)

/-- The fields of a packed word are the ones packed, side by side with no overlap. -/
theorem fields_packFields {op w wh ws : Nat} (hop : op < 16) (hw : w < 256) (hwh : wh < 4) (hws : ws < 2) :
    opField (packFields op w wh ws) = op ∧ widthField (packFields op w wh ws) = w ∧
      whenceField (packFields op w wh ws) = wh ∧ workspaceField (packFields op w wh ws) = ws ∧
      reservedField (packFields op w wh ws) = 0 := by
  simp only [opField, widthField, whenceField, workspaceField, reservedField, packFields_toNat hop hw hwh hws]
  omega

/-- Packing the fields of a word gives it back, if its reserved bits are 0. -/
theorem packFields_fields {c : CmdWord} (hr : reservedField c = 0) :
    packFields (opField c) (widthField c) (whenceField c) (workspaceField c) = c := by
  obtain ⟨hop, hw, hwh, hws, hr'⟩ :=
    fields_packFields (opField_lt c) (widthField_lt c) (whenceField_lt c) (workspaceField_lt c)
  exact word_eq_of_fields_eq hop hw hwh hws (hr'.trans hr.symm)

/-! ### The decoder on fields (R77, R78) -/

/-- Each field that the opcode does not use is 0 (R77). -/
structure UnusedFieldsZero (op w wh ws : Nat) : Prop where
  workspace : op ≠ 1 → ws = 0
  whence : op ≠ 7 → wh = 0
  width : op ≠ 4 → op ≠ 6 → w = 0

/-- What R77 asks of a word apart from its opcode and SEEK's whence. -/
structure UnusedBitsZero (c : CmdWord) : Prop extends
    UnusedFieldsZero (opField c) (widthField c) (whenceField c) (workspaceField c) where
  reserved : reservedField c = 0

/-- An opcode selects an instruction exactly when it is one of the nine and, for SEEK, `WH` is a whence. -/
theorem exists_instrOf_legal_iff {op w wh ws : Nat} (hwh : wh < 4) :
    (∃ i, instrOf op w wh ws = .legal i) ↔ op < 9 ∧ ¬(op = 7 ∧ wh = 3) := by
  by_cases hop : op < 9
  · interval_cases op <;> simp [instrOf]
    interval_cases wh <;> simp [whenceOf]
  · have hill : instrOf op w wh ws = .illegal .reservedOpcode := by
      obtain ⟨n, rfl⟩ := Nat.exists_eq_add_of_le' (Nat.le_of_not_lt hop)
      rfl
    simp [hill, hop]

/-- A check of the decoder lets a word through to a legal answer only if it does not hold. -/
theorem ite_illegal_eq_legal_iff {p : Prop} [Decidable p] {e : DecodeError} {d : Decoded} {i : Instr} :
    (if p then .illegal e else d) = .legal i ↔ ¬p ∧ d = .legal i := by
  split <;> simp [*]

/-- The checks of R78 come to the unused bits being 0; that the opcode and the whence are not reserved follows where the
instruction is looked up. -/
theorem decode_eq_legal_iff {c : CmdWord} {i : Instr} :
    decode c = .legal i ↔
      UnusedBitsZero c ∧ instrOf (opField c) (widthField c) (whenceField c) (workspaceField c) = .legal i := by
  simp only [decode, ite_illegal_eq_legal_iff]
  constructor
  · rintro ⟨-, hr, hws, hwh, -, hw, hi⟩
    exact ⟨⟨⟨by omega, by omega, by omega⟩, by omega⟩, hi⟩
  · rintro ⟨⟨⟨hws, hwh, hw⟩, hr⟩, hi⟩
    obtain ⟨hop, hseek⟩ := (exists_instrOf_legal_iff (whenceField_lt c)).1 ⟨i, hi⟩
    exact ⟨by omega, by omega, by omega, by omega, hseek, by omega, hi⟩

/-! ### Decoding and encoding -/

/-- The fields that make up a command word with reserved bits 0 (R72). -/
structure WordFields where
  op : Nat
  width : Nat
  whence : Nat
  workspace : Nat

/-- The fields of a word. -/
def wordFields (c : CmdWord) : WordFields := ⟨opField c, widthField c, whenceField c, workspaceField c⟩

/-- The fields of an instruction (R73); those its opcode does not use are 0 (R77). -/
def Instr.fields : Instr → WordFields
  | .wssize => ⟨0, 0, 0, 0⟩
  | .openFile ws => ⟨1, 0, 0, if ws then 1 else 0⟩
  | .close => ⟨2, 0, 0, 0⟩
  | .putbit => ⟨3, 0, 0, 0⟩
  | .putbits w => ⟨4, w, 0, 0⟩
  | .getbit => ⟨5, 0, 0, 0⟩
  | .getbits w => ⟨6, w, 0, 0⟩
  | .seek wh => ⟨7, 0, whenceCode wh, 0⟩
  | .tell => ⟨8, 0, 0, 0⟩

theorem encode_eq_packFields (i : Instr) :
    encode i = packFields i.fields.op i.fields.width i.fields.whence i.fields.workspace := by
  cases i <;> rfl

theorem whenceCode_lt (wh : Whence) : whenceCode wh < 4 := by cases wh <;> decide

theorem whenceOf_eq_some_iff {n : Nat} {wh : Whence} : whenceOf n = some wh ↔ n = whenceCode wh := by
  constructor
  · unfold whenceOf
    split <;> simp +contextual [eq_comm, whenceCode]
  · rintro rfl
    cases wh <;> rfl

theorem Instr.fields_op_lt (i : Instr) : i.fields.op < 9 := by cases i <;> simp [Instr.fields]

theorem Instr.fields_whence_lt (i : Instr) : i.fields.whence < 4 := by
  cases i with
  | seek wh => exact whenceCode_lt wh
  | _ => simp [Instr.fields]

theorem Instr.fields_workspace_lt (i : Instr) : i.fields.workspace < 2 := by
  cases i with
  | openFile ws => cases ws <;> simp [Instr.fields]
  | _ => simp [Instr.fields]

/-- Only a width can be too large for its field (R74). -/
theorem Instr.wellFormed_iff (i : Instr) : i.wellFormed = true ↔ i.fields.width < 256 := by
  cases i <;> simp [Instr.wellFormed, Instr.fields, widthEncodable, Nat.lt_succ_iff]

/-- The instruction looked up in fields, the unused ones being 0, is the one with these fields. -/
theorem fields_of_instrOf {op w wh ws : Nat} {i : Instr} (hws : ws < 2) (hz : UnusedFieldsZero op w wh ws)
    (hi : instrOf op w wh ws = .legal i) : i.fields = ⟨op, w, wh, ws⟩ := by
  obtain ⟨hws0, hwh0, hw0⟩ := hz
  have hopen : (if (ws == 1) = true then 1 else 0) = ws := by interval_cases ws <;> rfl
  unfold instrOf at hi
  split at hi
  case h_8 =>
    split at hi
    · next k hk =>
      cases hi
      simp [Instr.fields, whenceOf_eq_some_iff.1 hk, hws0, hw0]
    · cases hi
  case h_10 => cases hi
  all_goals
    cases hi
    simp_all [Instr.fields]

theorem Instr.unusedFieldsZero (i : Instr) :
    UnusedFieldsZero i.fields.op i.fields.width i.fields.whence i.fields.workspace := by
  constructor <;> cases i <;> simp [Instr.fields]

theorem instrOf_fields (i : Instr) :
    instrOf i.fields.op i.fields.width i.fields.whence i.fields.workspace = .legal i := by
  cases i with
  | openFile ws => cases ws <;> rfl
  | seek wh => cases wh <;> rfl
  | _ => rfl

/-- A word decodes to an instruction exactly when its fields are the instruction's and its reserved bits are 0. -/
theorem decode_eq_legal_iff_fields {c : CmdWord} {i : Instr} :
    decode c = .legal i ↔ reservedField c = 0 ∧ wordFields c = i.fields := by
  rw [decode_eq_legal_iff]
  constructor
  · rintro ⟨⟨hz, hr⟩, hi⟩
    exact ⟨hr, (fields_of_instrOf (workspaceField_lt c) hz hi).symm⟩
  · rintro ⟨hr, hf⟩
    have hz := i.unusedFieldsZero
    have hi := instrOf_fields i
    rw [← hf] at hz hi
    exact ⟨⟨hz, hr⟩, hi⟩

/-- Settles O1: the encoding packs the instruction's fields, and the decoder reads them back. -/
theorem decodeOfEncodeIsTheInstruction : Obligations.DecodeOfEncodeIsTheInstruction := by
  intro i hi
  obtain ⟨hop, hw, hwh, hws, hr⟩ := fields_packFields (i.fields_op_lt.trans (by decide)) (i.wellFormed_iff.1 hi)
    i.fields_whence_lt i.fields_workspace_lt
  rw [decode_eq_legal_iff_fields, encode_eq_packFields, wordFields, hop, hw, hwh, hws]
  exact ⟨hr, rfl⟩

/-- Settles O2: the word has no bits beside the fields that the decoder reads and the encoder packs again. -/
theorem legalWordIsTheEncodingOfItsInstruction : Obligations.LegalWordIsTheEncodingOfItsInstruction := by
  intro c i h
  obtain ⟨hr, hf⟩ := decode_eq_legal_iff_fields.1 h
  rw [encode_eq_packFields, i.wellFormed_iff, ← hf]
  exact ⟨packFields_fields hr, widthField_lt c⟩

/-- Settles O4. -/
theorem specCommandWordsDecode : Obligations.SpecCommandWordsDecode := by
  unfold Obligations.SpecCommandWordsDecode
  decide

/-! ### The rows of the opcode table (R78) -/

theorem fields_and (c m : CmdWord) :
    opField (c &&& m) = opField c &&& opField m ∧ widthField (c &&& m) = widthField c &&& widthField m ∧
      whenceField (c &&& m) = whenceField c &&& whenceField m ∧
      workspaceField (c &&& m) = workspaceField c &&& workspaceField m ∧
      reservedField (c &&& m) = reservedField c &&& reservedField m := by
  simp only [opField, widthField, whenceField, workspaceField, reservedField, BitVec.toNat_and, Nat.and_div_two_pow,
    Nat.and_mod_two_pow, true_and]
  exact ⟨Nat.and_mod_two_pow (n := 1), trivial⟩

/-- A word matches a row field by field. -/
theorem matchesWord_iff {r : OpcodeRow} {c : CmdWord} :
    r.matchesWord c = true ↔
      opField c &&& opField r.mask = opField r.pattern ∧ widthField c &&& widthField r.mask = widthField r.pattern ∧
        whenceField c &&& whenceField r.mask = whenceField r.pattern ∧
        workspaceField c &&& workspaceField r.mask = workspaceField r.pattern ∧
        reservedField c &&& reservedField r.mask = reservedField r.pattern := by
  obtain ⟨hop, hw, hwh, hws, hr⟩ := fields_and c r.mask
  rw [OpcodeRow.matchesWord, beq_iff_eq, ← hop, ← hw, ← hwh, ← hws, ← hr]
  constructor
  · intro h
    simp [h]
  · rintro ⟨hop, hw, hwh, hws, hr⟩
    exact word_eq_of_fields_eq hop hw hwh hws hr

/-- Every row asks for its opcode and for the bits to be 0 that R77 says are unused, and for nothing else. -/
theorem opcodeRows_masks : ∀ r ∈ opcodeRows,
    (opField r.mask = 2 ^ 4 - 1 ∧ reservedField r.mask = 2 ^ 17 - 1 ∧
      widthField r.mask = (if opField r.pattern = 4 ∨ opField r.pattern = 6 then 0 else 2 ^ 8 - 1) ∧
      whenceField r.mask = (if opField r.pattern = 7 then 0 else 2 ^ 2 - 1) ∧
      workspaceField r.mask = (if opField r.pattern = 1 then 0 else 2 ^ 1 - 1)) ∧
    reservedField r.pattern = 0 ∧ widthField r.pattern = 0 ∧ whenceField r.pattern = 0 ∧
      workspaceField r.pattern = 0 := by
  decide

theorem and_mask_unless_eq_zero_iff {p : Prop} [Decidable p] {x n : Nat} (hx : x < 2 ^ n) :
    x &&& (if p then 0 else 2 ^ n - 1) = 0 ↔ (¬p → x = 0) := by
  split <;> simp [*, Nat.and_two_pow_sub_one_of_lt_two_pow hx]

/-- A word matches a row exactly when its unused bits are 0 and its opcode is the row's. -/
theorem matchesWord_iff_of_mem {r : OpcodeRow} (hr : r ∈ opcodeRows) {c : CmdWord} :
    r.matchesWord c = true ↔ UnusedBitsZero c ∧ opField c = opField r.pattern := by
  obtain ⟨⟨mop, mr, mw, mwh, mws⟩, pr, pw, pwh, pws⟩ := opcodeRows_masks r hr
  rw [matchesWord_iff, mop, mr, mw, mwh, mws, pr, pw, pwh, pws, Nat.and_two_pow_sub_one_of_lt_two_pow (opField_lt c),
    Nat.and_two_pow_sub_one_of_lt_two_pow (reservedField_lt c), and_mask_unless_eq_zero_iff (widthField_lt c),
    and_mask_unless_eq_zero_iff (whenceField_lt c), and_mask_unless_eq_zero_iff (workspaceField_lt c)]
  constructor
  · rintro ⟨hop, hw, hwh, hws, hres⟩
    rw [← hop] at hw hwh hws
    exact ⟨⟨⟨hws, hwh, fun h4 h6 => hw (by omega)⟩, hres⟩, hop⟩
  · rintro ⟨⟨⟨hws, hwh, hw⟩, hres⟩, hop⟩
    rw [← hop]
    exact ⟨rfl, fun h => hw (by omega) (by omega), hwh, hws, hres⟩

/-- The rows stand in the order of their opcodes, and an opcode has one row or none. -/
theorem opcodeRows_filter_op (op : Fin 16) :
    opcodeRows.filter (fun r => decide (op.val = opField r.pattern)) = opcodeRows[op.val]?.toList := by
  revert op
  decide

theorem rows_matching_of_unusedBitsZero {c : CmdWord} (hz : UnusedBitsZero c) :
    opcodeRows.filter (fun r => r.matchesWord c) = opcodeRows[opField c]?.toList := by
  rw [← opcodeRows_filter_op ⟨opField c, opField_lt c⟩]
  refine List.filter_congr fun r hr => Bool.eq_iff_iff.2 ?_
  rw [matchesWord_iff_of_mem hr, decide_eq_true_iff, and_iff_right hz]

theorem rows_matching_of_unusedBit {c : CmdWord} (hz : ¬UnusedBitsZero c) :
    opcodeRows.filter (fun r => r.matchesWord c) = [] :=
  List.filter_eq_nil_iff.2 fun _ hr hm => hz ((matchesWord_iff_of_mem hr).1 hm).1

/-- The row at the place of an instruction's opcode is the instruction's. -/
theorem opcodeRows_getElem_fields_op (i : Instr) : opcodeRows[i.fields.op]? = some i.row := by cases i <;> rfl

/-- A legal word matches the row of its instruction and no other. -/
theorem rows_matching_of_legal {c : CmdWord} {i : Instr} (h : decode c = .legal i) :
    opcodeRows.filter (fun r => r.matchesWord c) = [i.row] := by
  have hop : opField c = i.fields.op := congrArg WordFields.op (decode_eq_legal_iff_fields.1 h).2
  rw [rows_matching_of_unusedBitsZero (decode_eq_legal_iff.1 h).1, hop, opcodeRows_getElem_fields_op]
  rfl

theorem one_row_matches_iff {c : CmdWord} :
    (opcodeRows.filter fun r => r.matchesWord c).length = 1 ↔ UnusedBitsZero c ∧ opField c < 9 := by
  by_cases hz : UnusedBitsZero c
  · rw [rows_matching_of_unusedBitsZero hz, and_iff_right hz]
    rcases Nat.lt_or_ge (opField c) 9 with hop | hop
    · rw [List.getElem?_eq_getElem (show opField c < opcodeRows.length from hop)]
      simp [hop]
    · rw [List.getElem?_eq_none (show opcodeRows.length ≤ opField c from hop)]
      simp [hop]
  · simp [rows_matching_of_unusedBit hz, hz]

/-- Settles O3: both sides say that the unused bits are 0, that the opcode is one of the nine, and that the whence of a
SEEK is not the reserved one. -/
theorem legalExactlyWhenOneRowMatches : Obligations.LegalExactlyWhenOneRowMatches := by
  intro c
  refine ⟨?_, fun i h => rows_matching_of_legal h⟩
  have hseek : rowSeek.matchesWord c = true ↔ UnusedBitsZero c ∧ opField c = 7 :=
    matchesWord_iff_of_mem (by decide)
  simp only [decode_eq_legal_iff, exists_and_left, exists_instrOf_legal_iff (whenceField_lt c), one_row_matches_iff,
    hseek]
  tauto

end Sys2Proof
end

section
/-! SUPPORT. The host's commands: an illegal word is turned away (R79), and no command is accepted outside `IDLE`
(R70). -/

namespace Sys2Proof.Machine

open Sys2Proof

/-- Settles O7: decoding comes first, before any look at the registers. -/
theorem illegalWordAnswersInvalidArgument : Obligations.IllegalWordAnswersInvalidArgument := by
  intro s c rest e hl hf ho hd
  rw [step_of_noReset hl, fsmStep_of_idle hf ho]
  exact runLatched_illegal rfl hd

theorem runLatched_hostSideKept {s t : State} (h : runLatched s = .next t) : HostSideKept s t := by
  rcases hl : s.latched with _ | c
  · simp [runLatched, hl] at h
  rcases hd : decode c.word with i | e
  · rw [runLatched_legal hl hd] at h
    exact exec_hostSideKept h
  · rw [runLatched_illegal hl hd] at h
    cases h
    exact s.anyUpdate_hostSideKept ..

/-- Running a command and going on with it after a wait leave the host's side alone. -/
theorem fsmStep_hostSideKept {s t : State} (hidle : s.fsm ≠ .idle) (hresp : s.fsm ≠ .resp) (h : fsmStep s = .next t) :
    HostSideKept s t := by
  cases hf : s.fsm <;> rw [fsmStep, hf] at h
  case idle => exact absurd hf hidle
  case exec => exact runLatched_hostSideKept h
  case waitAlloc dir => exact openAlloc_hostSideKept h
  case waitOpen dir owns base => exact openPort_hostSideKept h
  case waitWrite k =>
    cases k with
    | putbit => exact (putbitEmit_kept h).toHostSideKept
    | putbits w v => exact (putbitsResume_kept h).toHostSideKept
    | close => exact (closeFlush_kept h).toHostSideKept
  case waitRead k =>
    cases k with
    | getbit => exact (getbitFetch_kept h).toHostSideKept
    | getbits w res => exact (getbitsResume_kept h).toHostSideKept
  case waitSeek wh => exact (seekPort_kept h).1.toHostSideKept
  case waitTell => exact (tellPort_kept h).1.toHostSideKept
  case waitClose => exact (closePort_kept h).toHostSideKept
  case waitFree k =>
    cases k with
    | failedOpen base => exact openFree_hostSideKept h
    | close => exact (closeFree_kept h).toHostSideKept
  case resp => exact absurd hf hresp

/-- Settles O8: only `IDLE` takes from the commands offered; a reset and the taking of a response drop the latched
one. -/
theorem commandsWaitUntilTheEngineIsIdle : Obligations.CommandsWaitUntilTheEngineIsIdle := by
  intro s t hidle h
  cases hl : s.resetLine with
  | true =>
    rw [step_of_resetLine hl] at h
    cases h
    exact ⟨rfl, .inr rfl⟩
  | false =>
    rw [step_of_noReset hl] at h
    by_cases hresp : s.fsm = .resp
    · rw [fsmStep_of_resp hresp] at h
      cases h
      split
      · exact ⟨rfl, .inr rfl⟩
      · exact ⟨rfl, .inl rfl⟩
    · have hk := fsmStep_hostSideKept hidle hresp h
      exact ⟨hk.offered, .inl hk.latched⟩

end Sys2Proof.Machine
end

section
/-! SUPPORT. An operand a command does not read has no effect on it (R71): with another command latched that agrees on
the operands it reads, each stage does the same. -/

namespace Sys2Proof.Machine

open Sys2Proof

/-! ### Another command latched -/

/-- The state with another command latched. -/
def State.relatch (c : Command) (s : State) : State := { s with latched := some c }

/-- The outcome with another command latched in the next state. -/
def Outcome.relatch (c : Command) : Outcome → Outcome
  | .next t => .next (t.relatch c)
  | .fault f => .fault f
  | .refused r => .refused r

section

variable (c : Command) (s : State)

@[simp] theorem State.relatch_cfg : (s.relatch c).cfg = s.cfg := rfl
@[simp] theorem State.relatch_regs : (s.relatch c).regs = s.regs := rfl
@[simp] theorem State.relatch_device : (s.relatch c).device = s.device := rfl
@[simp] theorem State.relatch_allocator : (s.relatch c).allocator = s.allocator := rfl
@[simp] theorem State.relatch_operandA : (s.relatch c).operandA = c.a := rfl
@[simp] theorem State.relatch_operandB : (s.relatch c).operandB = c.b := rfl
@[simp] theorem State.relatch_operandPath : (s.relatch c).operandPath = c.path := rfl
@[simp] theorem State.relatch_operandMode : (s.relatch c).operandMode = c.modeStr := rfl

theorem State.setRegs_relatch (r : Regs) : (s.relatch c).setRegs r = (s.setRegs r).relatch c := rfl

theorem raise_relatch (st : Status) : raise st (s.relatch c) = Outcome.relatch c (raise st s) := rfl

theorem answer_relatch (v : Word64) : answer v (s.relatch c) = Outcome.relatch c (answer v s) := rfl

/-! ### The stages that read no operand -/

theorem putbitEmit_relatch : putbitEmit (s.relatch c) = Outcome.relatch c (putbitEmit s) := by
  unfold putbitEmit State.portWrite
  rw [State.relatch_device, State.relatch_regs]
  rcases s.device.write s.regs.buf with _ | ⟨_ | _, d⟩ <;> rfl

theorem getbitFetch_relatch : getbitFetch (s.relatch c) = Outcome.relatch c (getbitFetch s) := by
  unfold getbitFetch State.fetch State.portRead
  rw [State.relatch_device, State.relatch_regs]
  cases s.regs.eofs <;> rcases s.device.read with _ | ⟨_ | _ | _, d⟩ <;> rfl

theorem tellPort_relatch : tellPort (s.relatch c) = Outcome.relatch c (tellPort s) := by
  unfold tellPort State.portTell
  rw [State.relatch_device]
  rcases s.device.tell with _ | ⟨_ | _, d⟩ <;> rfl

theorem openFree_relatch (base : Word64) : openFree base (s.relatch c) = Outcome.relatch c (openFree base s) := by
  unfold openFree State.free
  rw [State.relatch_allocator]
  rcases s.allocator.free with _ | m <;> rfl

theorem closeFree_relatch : closeFree (s.relatch c) = Outcome.relatch c (closeFree s) := by
  unfold closeFree State.free
  rw [State.relatch_allocator]
  rcases s.allocator.free with _ | m <;> rfl

theorem closePort_relatch : closePort (s.relatch c) = Outcome.relatch c (closePort s) := by
  rcases hd : s.device.close with _ | ⟨r, d⟩
  · rw [closePort_of_unanswered hd]
    exact closePort_of_unanswered hd
  · rw [closePort_of_answer hd, closePort_of_answer (s := s.relatch c) hd, State.relatch_regs]
    cases s.regs.owns with
    | true => exact closeFree_relatch c ((s.transacted d _).bind none)
    | false => rfl

theorem closeFlush_relatch : closeFlush (s.relatch c) = Outcome.relatch c (closeFlush s) := by
  rcases hd : s.device.write s.regs.buf with _ | ⟨r, d⟩
  · unfold closeFlush State.portWrite
    rw [State.relatch_device, State.relatch_regs, hd]
    rfl
  · rw [closeFlush_of_answer hd]
    exact (closeFlush_of_answer (s := s.relatch c) hd).trans (closePort_relatch c (s.transacted d _))

theorem putbitsEmit_relatch {loop : State → Outcome}
    (hloop : ∀ u : State, loop (u.relatch c) = Outcome.relatch c (loop u)) (w : Nat) (v : Word64) :
    putbitsEmit loop w v (s.relatch c) = Outcome.relatch c (putbitsEmit loop w v s) := by
  unfold putbitsEmit State.portWrite
  rw [State.relatch_device, State.relatch_regs]
  rcases s.device.write s.regs.buf with _ | ⟨_ | _, d⟩
  · rfl
  · exact hloop ((s.transacted d _).setRegs s.regs.emitted)
  · rfl

theorem getbitsFetch_relatch {loop : State → Outcome}
    (hloop : ∀ u : State, loop (u.relatch c) = Outcome.relatch c (loop u)) (w : Nat) (res : Word64) :
    getbitsFetch loop w res (s.relatch c) = Outcome.relatch c (getbitsFetch loop w res s) := by
  unfold getbitsFetch State.fetch State.portRead
  rw [State.relatch_device, State.relatch_regs]
  cases s.regs.eofs with
  | true => rfl
  | false =>
    rcases s.device.read with _ | ⟨b | _ | _, d⟩
    · rfl
    · exact hloop ((s.transacted d _).setRegs (s.regs.load b 8))
    · rfl
    · rfl

end

theorem putbitsLoop_relatch (c : Command) (fuel w : Nat) (v : Word64) (s : State) :
    putbitsLoop fuel w v (s.relatch c) = Outcome.relatch c (putbitsLoop fuel w v s) := by
  induction fuel generalizing w s with
  | zero => rfl
  | succ fuel ih =>
    rw [putbitsLoop_succ, putbitsLoop_succ, State.relatch_regs]
    split
    · exact putbitsEmit_relatch c (s.setRegs _) (fun u => ih _ u) _ v
    · rfl

theorem getbitsLoop_relatch (c : Command) (fuel w : Nat) (res : Word64) (s : State) :
    getbitsLoop fuel w res (s.relatch c) = Outcome.relatch c (getbitsLoop fuel w res s) := by
  induction fuel generalizing w res s with
  | zero => rfl
  | succ fuel ih =>
    rw [getbitsLoop_succ, getbitsLoop_succ, State.relatch_regs]
    split
    · exact getbitsFetch_relatch c (s.setRegs _) (fun u => ih _ _ u) _ _
    · rfl

/-! ### The stages that read operands -/

theorem seekPort_relatch (wh : Whence) {c : Command} {s : State} (ha : c.a = s.operandA) :
    seekPort wh (s.relatch c) = Outcome.relatch c (seekPort wh s) := by
  unfold seekPort State.portSeek
  rw [State.relatch_device, State.relatch_operandA, ha]
  rcases s.device.seek (operandOffset s.operandA) wh with _ | ⟨_ | _ | _, d⟩ <;> rfl

theorem putbitPlace_relatch {c : Command} {s : State} (ha : c.a = s.operandA) :
    putbitPlace (s.relatch c) = Outcome.relatch c (putbitPlace s) := by
  rw [putbitPlace_eq, putbitPlace_eq, State.relatch_operandA, State.relatch_regs, ha]
  split
  · exact putbitEmit_relatch c (s.setRegs _)
  · rfl

section

variable {c : Command} {s : State} (hp : c.path = s.operandPath) (hm : c.modeStr = s.operandMode)

include hp hm

theorem openPort_relatch (dir : Mode) (owns : Bool) (base : Word64) :
    openPort dir owns base (s.relatch c) = Outcome.relatch c (openPort dir owns base s) := by
  have hpath : (s.relatch c).openPath = s.openPath := congrArg (Option.getD · []) hp
  have hrest : (s.relatch c).openRest = s.openRest := congrArg (fun m => modeRest (Option.getD m [])) hm
  have hdev : (s.relatch c).device.openFile (s.relatch c).openPath dir = s.device.openFile s.openPath dir :=
    congrArg (s.device.openFile · dir) hpath
  rcases hd : s.device.openFile s.openPath dir with _ | ⟨_ | _, d⟩
  · rw [openPort_of_unanswered hd, openPort_of_unanswered (hdev.trans hd)]
    rfl
  · rw [openPort_of_ok hd, openPort_of_ok (hdev.trans hd), hpath, hrest]
    rfl
  · rw [openPort_of_err hd, openPort_of_err (hdev.trans hd), hpath, hrest]
    cases owns with
    | true => exact openFree_relatch c ((s.transacted d _).bind none) base
    | false => rfl

theorem openAlloc_relatch (dir : Mode) : openAlloc dir (s.relatch c) = Outcome.relatch c (openAlloc dir s) := by
  rcases ha : s.allocator.alloc s.cfg.workspaceSize with _ | ⟨a | _, m⟩
  · rw [openAlloc_of_unanswered ha]
    exact openAlloc_of_unanswered ha
  · rw [openAlloc_of_addr ha]
    exact (openAlloc_of_addr (s := s.relatch c) ha).trans
      (openPort_relatch (s := s.allocated m _) hp hm dir true a)
  · rw [openAlloc_of_fail ha]
    exact openAlloc_of_fail ha

theorem openSupplied_relatch (ha : c.a = s.operandA) (hb : c.b = s.operandB) (dir : Mode) :
    openSupplied dir (s.relatch c) = Outcome.relatch c (openSupplied dir s) := by
  simp only [openSupplied, State.relatch_operandA, State.relatch_operandB, State.relatch_cfg, ha, hb, raise_relatch,
    openPort_relatch hp hm, apply_ite (Outcome.relatch c)]

/-- OPEN reads `A` and `B` only when a workspace is supplied (R76). -/
theorem execOpen_relatch (ws : Bool) (hab : ws = true → c.a = s.operandA ∧ c.b = s.operandB) :
    execOpen ws (s.relatch c) = Outcome.relatch c (execOpen ws s) := by
  unfold execOpen
  rw [State.relatch_regs, State.relatch_operandPath, State.relatch_operandMode, hp, hm]
  cases s.regs.active with
  | true => rfl
  | false =>
    rcases s.operandPath with _ | path
    · rfl
    rcases s.operandMode with _ | m
    · rfl
    dsimp only
    rcases modeDirection m with _ | dir
    · rfl
    cases ws with
    | true => exact openSupplied_relatch hp hm (hab rfl).1 (hab rfl).2 dir
    | false => exact openAlloc_relatch hp hm dir

end

/-! ### The instructions -/

theorem execPutbit_relatch {c : Command} {s : State} (ha : c.a = s.operandA) :
    execPutbit (s.relatch c) = Outcome.relatch c (execPutbit s) := by
  simp only [execPutbit, State.relatch_regs, raise_relatch, putbitPlace_relatch ha, apply_ite (Outcome.relatch c)]
  rfl

theorem execPutbits_relatch {c : Command} {s : State} (ha : c.a = s.operandA) (w : Nat) :
    execPutbits w (s.relatch c) = Outcome.relatch c (execPutbits w s) := by
  simp only [execPutbits, State.relatch_regs, State.relatch_operandA, ha, raise_relatch, putbitsLoop_relatch,
    apply_ite (Outcome.relatch c)]

theorem execGetbit_relatch (c : Command) (s : State) :
    execGetbit (s.relatch c) = Outcome.relatch c (execGetbit s) := by
  simp only [execGetbit, State.relatch_regs, State.setRegs_relatch, raise_relatch, answer_relatch, getbitFetch_relatch,
    apply_ite (Outcome.relatch c)]

theorem execGetbits_relatch (c : Command) (s : State) (w : Nat) :
    execGetbits w (s.relatch c) = Outcome.relatch c (execGetbits w s) := by
  simp only [execGetbits, State.relatch_regs, raise_relatch, getbitsLoop_relatch, apply_ite (Outcome.relatch c)]

theorem execSeek_relatch {c : Command} {s : State} (ha : c.a = s.operandA) (wh : Whence) :
    execSeek wh (s.relatch c) = Outcome.relatch c (execSeek wh s) := by
  have hseek : seekPort wh ((s.setRegs s.regs.discard).relatch c) = _ := seekPort_relatch wh ha
  simp only [execSeek, State.relatch_regs, State.setRegs_relatch, raise_relatch, hseek, apply_ite (Outcome.relatch c)]

theorem execTell_relatch (c : Command) (s : State) : execTell (s.relatch c) = Outcome.relatch c (execTell s) := by
  simp only [execTell, State.relatch_regs, raise_relatch, tellPort_relatch, apply_ite (Outcome.relatch c)]

theorem execClose_relatch (c : Command) (s : State) : execClose (s.relatch c) = Outcome.relatch c (execClose s) := by
  simp only [execClose, State.relatch_regs, answer_relatch, closeFlush_relatch, closePort_relatch,
    apply_ite (Outcome.relatch c)]

/-- The latched command enters a meaning only through the operands that R71 says the instruction reads. -/
theorem exec_relatch {i : Instr} {c c' : Command} (s : State) (h : sameOperands i c c') :
    exec i (s.relatch c') = Outcome.relatch c' (exec i (s.relatch c)) := by
  cases i with
  | wssize => rfl
  | openFile ws =>
    obtain ⟨hpath, hmode, hab⟩ := h
    exact execOpen_relatch (s := s.relatch c) hpath.symm hmode.symm ws fun hws =>
      ⟨(hab hws).1.symm, (hab hws).2.symm⟩
  | close => exact execClose_relatch c' (s.relatch c)
  | putbit => exact execPutbit_relatch (s := s.relatch c) h.symm
  | putbits w => exact execPutbits_relatch (s := s.relatch c) h.symm w
  | getbit => exact execGetbit_relatch c' (s.relatch c)
  | getbits w => exact execGetbits_relatch c' (s.relatch c) w
  | seek wh => exact execSeek_relatch (s := s.relatch c) h.symm wh
  | tell => exact execTell_relatch c' (s.relatch c)

/-- Settles O25: latching the other command before the instruction or after it comes to the same. -/
theorem unreadOperandsAreIgnored : Obligations.UnreadOperandsAreIgnored := by
  intro i s t c c' hsame h
  change exec i (s.relatch c) = .next t at h
  change exec i (s.relatch c') = .next (t.relatch c')
  rw [exec_relatch s hsame, h]
  rfl

end Sys2Proof.Machine
end

section
/-! SUPPORT. WSSIZE and OPEN: the operands OPEN reads, its checks before the first transaction (R94), and its outcomes at
the allocator and at the file, each as one equation on the whole state (R92, R95, R97). -/

namespace Sys2Proof.Machine

open Sys2Proof

/-! ### A command that only answers -/

theorem State.respond_eq_after (st : Status) (v : Word64) (s : State) :
    s.respond st v = s.after s.regs s.device [] st v := by
  simp [State.respond, State.after]

/-- Settles O31: `ENTITY_SIZE + 16` is a 64-bit number by the range of R11. -/
theorem wssizeAnswersTheWorkspaceSize : Obligations.WssizeAnswersTheWorkspaceSize := by
  refine ⟨by decide, fun s => ⟨BitVec.ofNat 64 s.cfg.workspaceSize, ?_, ?_⟩⟩
  · have hrange := s.cfg.entitySize.isLt
    rw [BitVec.toNat_ofNat, Config.workspaceSize, Config.wsAlign]
    omega
  · rw [← State.respond_eq_after]
    rfl

/-- Settles O36: the slack of `WS_ALIGN` bytes covers the alignment. -/
theorem handleIsTheFirstAlignedPlace : Obligations.HandleIsTheFirstAlignedPlace := by
  intro cfg base hfits
  have hlt := alignUp16_lt base.toNat
  rw [placementHandle_toNat hfits]
  refine ⟨dvd_alignUp16 _, le_alignUp16 _, fun n hn hbase => ?_, ?_⟩
  · unfold alignUp16
    omega
  · unfold Config.workspaceSize
    omega

/-! ### The mode string and the path (R82, R96) -/

theorem modeDirection_eq_some_iff {m : Bytes} {dir : Mode} :
    modeDirection m = some dir ↔ m.head? = some 0x72 ∧ dir = .read ∨ m.head? = some 0x77 ∧ dir = .write := by
  rcases m with _ | ⟨ch, rest⟩
  · simp [modeDirection]
  · by_cases hr : ch = 0x72
    · subst hr
      simp [modeDirection, eq_comm]
    · by_cases hw : ch = 0x77
      · subst hw
        simp [modeDirection, eq_comm]
      · rw [modeDirection, if_neg hr, if_neg hw, List.head?_cons]
        grind

theorem modeDirection_eq_none_iff {m : Bytes} :
    modeDirection m = none ↔ m.head? ≠ some 0x72 ∧ m.head? ≠ some 0x77 := by
  rw [Option.eq_none_iff_forall_ne_some]
  simp only [ne_eq, modeDirection_eq_some_iff, not_or, not_and]
  exact ⟨fun h => ⟨fun hr => h .read |>.1 hr rfl, fun hw => h .write |>.2 hw rfl⟩,
    fun h dir => ⟨fun hr => absurd hr h.1, fun hw => absurd hw h.2⟩⟩

theorem State.openPath_of_operand {s : State} {path : Bytes} (hp : s.operandPath = some path) : s.openPath = path := by
  rw [State.openPath, hp, Option.getD_some]

theorem State.openRest_of_operand {s : State} {ch : Byte} {rest : Bytes} (hm : s.operandMode = some (ch :: rest)) :
    s.openRest = rest := by
  rw [State.openRest, hm, Option.getD_some, modeRest]

/-! ### The checks of OPEN (R94, steps 1 to 5) -/

theorem execOpen_of_absent (ws : Bool) {s : State} (ha : s.regs.active = false)
    (h : s.operandPath = none ∨ s.operandMode = none) : execOpen ws s = .next (s.respond .invalidArgument 0) := by
  rcases hp : s.operandPath with _ | path
  · simp [execOpen, ha, hp]
  · have hm : s.operandMode = none := h.resolve_left (by simp [hp])
    simp [execOpen, ha, hp, hm]

theorem execOpen_of_noDirection (ws : Bool) {s : State} {path m : Bytes} (ha : s.regs.active = false)
    (hp : s.operandPath = some path) (hm : s.operandMode = some m) (hd : modeDirection m = none) :
    execOpen ws s = .next (s.respond .invalidArgument 0) := by
  simp [execOpen, ha, hp, hm, hd]

theorem openSupplied_of_small {dir : Mode} {s : State} (hB : s.operandB.toNat < s.cfg.workspaceSize) :
    openSupplied dir s = .next (s.respond .insufficientWorkspace 0) := by
  rw [openSupplied, if_pos hB, raise_eq]

theorem openSupplied_of_outside {dir : Mode} {s : State} (hB : s.cfg.workspaceSize ≤ s.operandB.toNat)
    (hA : 2 ^ 64 < s.operandA.toNat + s.operandB.toNat) :
    openSupplied dir s = .next (s.respond .invalidArgument 0) := by
  rw [openSupplied, if_neg (by omega), if_pos hA, raise_eq]

/-- Settles O32: one lemma for each check, in the rule's order. -/
theorem openChecksInOrder : Obligations.OpenChecksInOrder := by
  intro s ws
  simp only [← State.respond_zero_eq_rejected]
  refine ⟨execOpen_of_active ws, execOpen_of_absent ws, fun path mode ha hp hm => ⟨fun hr hw => ?_, fun hch hws => ?_⟩⟩
  · exact execOpen_of_noDirection ws ha hp hm (modeDirection_eq_none_iff.2 ⟨hr, hw⟩)
  · obtain ⟨dir, hd⟩ : ∃ dir, modeDirection mode = some dir := by
      rcases hch with hr | hw
      · exact ⟨.read, modeDirection_eq_some_iff.2 (.inl ⟨hr, rfl⟩)⟩
      · exact ⟨.write, modeDirection_eq_some_iff.2 (.inr ⟨hw, rfl⟩)⟩
    have hopen : exec (.openFile ws) s = openSupplied dir s :=
      (execOpen_of_checks ha hp hm hd).trans (if_pos hws)
    rw [hopen]
    exact ⟨openSupplied_of_small, openSupplied_of_outside⟩

/-! ### OPEN past its checks -/

/-- The context R95 gives, `CNT` by the direction. -/
theorem Regs.opened_eq (dir : Mode) (owns : Bool) (base : Word64) :
    Regs.opened dir owns base =
      { active := true, mode := dir, buf := 0, cnt := if dir = .read then 0 else 8, owns := owns, eofs := false,
        fault := false, wsbase := base } := by
  cases dir <;> rfl

theorem openFree_of_answer {base : Word64} {s : State} {m : Allocator} (hm : s.allocator.free = some m) :
    openFree base s = .next ((s.allocated m (.free base)).respond .fileOpenFailed 0) := by
  simp [openFree, State.free, hm]

section

variable {s : State} {path rest : Bytes} {ch : Byte} {dir : Mode} (hp : s.operandPath = some path)
  (hm : s.operandMode = some (ch :: rest))
include hp hm

theorem openPort_ok_eq_after {owns : Bool} {base : Word64} {d : Device}
    (hd : s.device.openFile path dir = some (.ok, d)) :
    openPort dir owns base s = .next
      { s.after
          { active := true, mode := dir, buf := 0, cnt := if dir = .read then 0 else 8, owns := owns, eofs := false,
            fault := false, wsbase := base }
          d [.portOpen path dir rest .ok] .ok (placementHandle base) with
        file := some ⟨path, dir, rest⟩ } := by
  obtain rfl := State.openPath_of_operand hp
  obtain rfl := State.openRest_of_operand hm
  rw [openPort_of_ok hd, Regs.opened_eq]
  rfl

/-- A borrowed workspace is not freed. -/
theorem openPort_err_borrowed_eq_after {base : Word64} {d : Device}
    (hd : s.device.openFile path dir = some (.err, d)) :
    openPort dir false base s = .next
      { s.after s.regs d [.portOpen path dir rest .err] .fileOpenFailed 0 with file := none } := by
  obtain rfl := State.openPath_of_operand hp
  obtain rfl := State.openRest_of_operand hm
  rw [openPort_of_err hd]
  rfl

/-- An owned workspace is freed after the `PortOpen` that failed. -/
theorem openPort_err_owned_eq_after {base : Word64} {d : Device} {m : Allocator}
    (hd : s.device.openFile path dir = some (.err, d)) (hfree : s.allocator.free = some m) :
    openPort dir true base s = .next
      { s.after s.regs d [.portOpen path dir rest .err, .free base] .fileOpenFailed 0 with
        file := none, allocator := m } := by
  obtain rfl := State.openPath_of_operand hp
  obtain rfl := State.openRest_of_operand hm
  rw [openPort_of_err hd, if_pos rfl, openFree_of_answer (by exact hfree)]
  simp [State.respond, State.allocated, State.bind, State.transacted, State.after]

theorem execOpen_of_operands {ws : Bool} (ha : s.regs.active = false)
    (hch : ch = 0x72 ∧ dir = .read ∨ ch = 0x77 ∧ dir = .write) :
    execOpen ws s = if ws then openSupplied dir s else openAlloc dir s :=
  execOpen_of_checks ha hp hm (modeDirection_eq_some_iff.2 (by simpa using hch))

theorem exec_openFile_supplied (ha : s.regs.active = false)
    (hch : ch = 0x72 ∧ dir = .read ∨ ch = 0x77 ∧ dir = .write) (hB : s.cfg.workspaceSize ≤ s.operandB.toNat)
    (hA : s.operandA.toNat + s.operandB.toNat ≤ 2 ^ 64) :
    exec (.openFile true) s = openPort dir false s.operandA s :=
  (execOpen_of_operands hp hm ha hch).trans (openSupplied_of_checks hB hA)

theorem exec_openFile_allocated (ha : s.regs.active = false)
    (hch : ch = 0x72 ∧ dir = .read ∨ ch = 0x77 ∧ dir = .write) : exec (.openFile false) s = openAlloc dir s :=
  execOpen_of_operands hp hm ha hch

end

/-- Settles O33. -/
theorem openWithSuppliedWorkspaceSucceeds : Obligations.OpenWithSuppliedWorkspaceSucceeds := by
  intro s path rest ch dir d ha hp hm hch hB hA hd
  rw [exec_openFile_supplied hp hm ha hch hB hA]
  exact openPort_ok_eq_after hp hm hd

/-- Settles O34: `PortOpen` runs in the state the `Alloc` leaves. -/
theorem openWithAllocatedWorkspaceSucceeds : Obligations.OpenWithAllocatedWorkspaceSucceeds := by
  intro s path rest ch dir a m d ha hp hm hch halloc hd
  have hport := openPort_ok_eq_after (s := s.allocated m (.alloc s.cfg.workspaceSize (.addr a))) (owns := true)
    (base := a) hp hm hd
  rw [exec_openFile_allocated hp hm ha hch, openAlloc_of_addr halloc, hport]
  simp [State.after, State.allocated]

/-- Settles O35: one clause for each place at which OPEN fails. -/
theorem failedOpenFreesWhatItAllocated : Obligations.FailedOpenFreesWhatItAllocated := by
  intro s path rest ch dir ha hp hm hch
  refine ⟨fun m halloc => ?_, fun a m m' d halloc hd hfree => ?_, fun d hB hA hd => ?_⟩
  · rw [exec_openFile_allocated hp hm ha hch, openAlloc_of_fail halloc]
    rfl
  · have hport := openPort_err_owned_eq_after (s := s.allocated m (.alloc s.cfg.workspaceSize (.addr a))) (base := a)
      hp hm hd hfree
    rw [exec_openFile_allocated hp hm ha hch, openAlloc_of_addr halloc, hport]
    simp [State.after, State.allocated]
  · rw [exec_openFile_supplied hp hm ha hch hB hA]
    exact openPort_err_borrowed_eq_after hp hm hd

end Sys2Proof.Machine
end

section
/-! SUPPORT. CLOSE: its stages with their answers as equations on the whole state (R98, R100, R101), and the byte it
flushes as the one a PUTBITS of `CNT` zero bits emits (R99). -/

namespace Sys2Proof.Machine

open Sys2Proof

/-! ### CLOSE to its end -/

/-- Settles O38. -/
theorem closeOfAClosedEngineIsANoOp : Obligations.CloseOfAClosedEngineIsANoOp := by
  intro s ha
  rw [← State.respond_eq_after]
  exact execClose_of_closed ha

theorem Regs.flushPending_iff (r : Regs) :
    r.flushPending = true ↔ r.mode = .write ∧ r.fault = false ∧ r.cnt ≠ 8 := by
  simp [Regs.flushPending, and_assoc]

theorem closeFree_of_answer {s : State} {m : Allocator} (hm : s.allocator.free = some m) :
    closeFree s = .next (((s.allocated m (.free s.regs.wsbase)).setRegs Regs.reset).respond .ok 0) := by
  simp [closeFree, State.free, closeDone, hm]

/-- CLOSE from its `PortClose` on, once the device and the allocator answer. -/
theorem closePort_eq_after {s : State} {r : IoAnswer} {d : Device} {m : Allocator}
    (hd : s.device.close = some (r, d))
    (hm : if s.regs.owns then s.allocator.free = some m else m = s.allocator) :
    closePort s = .next
      { s.after Regs.reset d ([.portClose r] ++ if s.regs.owns then [.free s.regs.wsbase] else []) .ok 0 with
        file := none, allocator := m } := by
  rw [closePort_of_answer hd]
  cases ho : s.regs.owns with
  | false =>
    obtain rfl : m = s.allocator := by simpa [ho] using hm
    rfl
  | true =>
    have hfree : s.allocator.free = some m := by simpa [ho] using hm
    rw [if_pos rfl, closeFree_of_answer (by exact hfree)]
    simp [State.respond, State.setRegs, State.allocated, State.bind, State.transacted, State.after]

/-- Settles O39: with a flush the rest of CLOSE runs in the state the `PortWrite` leaves. -/
theorem closeFlushesReleasesAndResets : Obligations.CloseFlushesReleasesAndResets := by
  intro s d₁ d₂ m r₁ r₂ flush ha hflush hwrite hclose hfree
  obtain rfl : flush = s.regs.flushPending := Bool.eq_iff_iff.2 (hflush.trans s.regs.flushPending_iff.symm)
  change execClose s = _
  rw [execClose_of_open ha]
  cases hp : s.regs.flushPending with
  | false =>
    obtain rfl : d₁ = s.device := by simpa [hp] using hwrite
    exact closePort_eq_after hclose hfree
  | true =>
    have hw : s.device.write s.regs.buf = some (r₁, d₁) := by simpa [hp] using hwrite
    rw [if_pos rfl, closeFlush_of_answer hw,
      closePort_eq_after (s := s.transacted d₁ (.portWrite s.regs.buf r₁)) hclose hfree]
    simp only [State.after, State.transacted, List.append_assoc]
    rfl

/-! ### The flushed byte (R99) -/

/-- The bits of a number are its high bits followed by its `n` low ones. -/
theorem bitsOf_add (m n v : Nat) : bitsOf (m + n) v = bitsOf m (v >>> n) ++ bitsOf n v := by
  induction m with
  | zero => simp [bitsOf]
  | succ m ih => rw [Nat.succ_add, bitsOf, bitsOf, ih, Nat.testBit_shiftRight, Nat.add_comm n m, List.cons_append]

theorem bitsOf_eq_replicate_of_mod_eq_zero {n v : Nat} (h : v % 2 ^ n = 0) : bitsOf n v = List.replicate n false := by
  induction n with
  | zero => rfl
  | succ n ih =>
    have hbit : v.testBit n = false := by simpa [h] using (Nat.testBit_mod_two_pow v (n + 1) n).symm
    have hlow : v % 2 ^ n = 0 := Nat.mod_eq_zero_of_dvd <|
      (pow_dvd_pow 2 n.le_succ).trans (Nat.dvd_of_mod_eq_zero h)
    rw [bitsOf, hbit, ih hlow, List.replicate_succ]

theorem Regs.fillByte_zero (r : Regs) (w : Nat) : r.fillByte w 0 = r := by
  simp [Regs.fillByte, lowBits]

theorem Regs.fillRest_zero (r : Regs) (v : Nat) : r.fillRest 0 v = r := by
  simp [Regs.fillRest, lowBits, Nat.mod_one]

theorem putbitsEmit_of_ok {loop : State → Outcome} {w : Nat} {v : Word64} {s : State} {d : Device}
    (hd : s.device.write s.regs.buf = some (.ok, d)) :
    putbitsEmit loop w v s = loop ((s.transacted d (.portWrite s.regs.buf .ok)).setRegs s.regs.emitted) := by
  simp [putbitsEmit, State.portWrite, hd]

/-- With no bit left the PUTBITS loop answers and writes nothing. -/
theorem putbitsLoop_zero_width {fuel : Nat} {v : Word64} {s : State} (h1 : 1 ≤ s.regs.cnt.toNat) :
    putbitsLoop (fuel + 1) 0 v s = .next (s.respond .ok 0) := by
  rw [putbitsLoop_succ, if_neg (by omega), Regs.fillRest_zero]
  rfl

/-- A PUTBITS of `CNT` zero bits emits `BUF` as it stands and places nothing after it. -/
theorem execPutbits_zeros_of_ok {s : State} {d : Device} (hu : s.regs.Usable .write) (h8 : s.regs.cnt.toNat ≤ 8)
    (hA : s.operandA = 0) (hd : s.device.write s.regs.buf = some (.ok, d)) :
    execPutbits s.regs.cnt.toNat s =
      .next (((s.transacted d (.portWrite s.regs.buf .ok)).setRegs s.regs.emitted).respond .ok 0) := by
  have hfield : operandField s.regs.cnt.toNat s.operandA = 0 := by simp [operandField, hA]
  have hfill : s.setRegs (s.regs.fillByte 0 (0 : Word64).toNat) = s := by
    change s.setRegs (s.regs.fillByte 0 0) = s
    rw [Regs.fillByte_zero]
    rfl
  rw [execPutbits_of_usable hu (by omega), hfield, loopFuel, putbitsLoop_succ, if_pos le_rfl, Nat.sub_self, hfill,
    putbitsEmit_of_ok hd, putbitsLoop_zero_width (by simp)]

theorem closeFlush_writes_buf_alone {s : State} {r : IoAnswer} {d : Device}
    (hd : s.device.write s.regs.buf = some (r, d)) :
    ∃ t more, closeFlush s = .next t ∧ t.traffic = s.traffic ++ .portWrite s.regs.buf r :: more ∧
      ∀ x ∈ more, x.kind ≠ .portWrite := by
  obtain ⟨t, ht⟩ := closeFlush_next s
  have hport : closePort (s.transacted d (.portWrite s.regs.buf r)) = .next t := (closeFlush_of_answer hd).symm.trans ht
  obtain ⟨more, htraffic, hkinds⟩ := (closePort_beginsWith _).issuesAtMost hport
  refine ⟨t, more, ht, htraffic.trans (List.append_assoc _ [_] _), fun x hx hwrite => ?_⟩
  have hmem := hkinds.subset (List.mem_map_of_mem hx)
  simp [hwrite, Request.kind] at hmem

/-- Settles O40. -/
theorem flushIsAPutbitsOfZeroBits : Obligations.FlushIsAPutbitsOfZeroBits := by
  intro s ha hm hf h1 h7
  have hpending : s.regs.flushPending = true :=
    s.regs.flushPending_iff.2 ⟨hm, hf, fun h8 => by simp [h8] at h7⟩
  refine ⟨fun r d hd => ?_, fun d hA hd => ?_, fun hzero => ?_⟩
  · have hclose : exec .close s = closeFlush s := (execClose_of_open ha).trans (if_pos hpending)
    rw [hclose]
    exact closeFlush_writes_buf_alone hd
  · exact execPutbits_zeros_of_ok ⟨ha, hm, hf⟩ (by omega) hA hd
  · have h8 : 8 = 8 - s.regs.cnt.toNat + s.regs.cnt.toNat := by omega
    calc bitsOf 8 s.regs.buf.toNat
        = bitsOf (8 - s.regs.cnt.toNat + s.regs.cnt.toNat) s.regs.buf.toNat := by rw [← h8]
      _ = s.regs.pendingBits ++ bitsOf s.regs.cnt.toNat s.regs.buf.toNat := bitsOf_add ..
      _ = _ := by rw [bitsOf_eq_replicate_of_mod_eq_zero hzero]

end Sys2Proof.Machine
end

section
/-! SUPPORT. The checks of the transfers (R116, R137, R172), PUTBIT as equations on the whole state (R110, R115), and
the masking of PUTBITS (R113). -/

namespace Sys2Proof.Machine

open Sys2Proof

/-! ### The direction and the width are checked before the fault state -/

/-- Settles O28: `MODE` is the second check of all four transfers. -/
theorem wrongModeComesBeforeWidthAndFault : Obligations.WrongModeComesBeforeWidthAndFault := by
  intro s w ha
  rw [← State.respond_zero_eq_rejected]
  refine ⟨fun hm => ⟨?_, ?_⟩, fun hm => ⟨?_, ?_⟩⟩
  · simp [exec, execPutbit, ha, hm]
  · simp [exec, execPutbits, ha, hm]
  · simp [exec, execGetbit, ha, hm]
  · simp [exec, execGetbits, ha, hm]

/-- Settles O29: the width is the third check of PUTBITS and GETBITS. -/
theorem oversizedFieldIsRejected : Obligations.OversizedFieldIsRejected := by
  intro s w ha hw
  rw [← State.respond_zero_eq_rejected]
  constructor <;> intro hm
  · simp [exec, execPutbits, Config.maxField, ha, hm, hw]
  · simp [exec, execGetbits, Config.maxField, ha, hm, hw]

/-! ### PUTBIT -/

/-- PUTBIT's update with a place free: the cut to the width of each register loses nothing. -/
theorem Regs.placeBit_eq {r : Regs} (b : Nat) (h1 : 1 ≤ r.cnt.toNat) :
    r.placeBit b = { r with cnt := r.cnt - 1, buf := r.buf ||| BitVec.ofNat 8 (b <<< (r.cnt.toNat - 1)) } := by
  have hcnt : BitVec.ofNat 4 (r.cnt.toNat - 1) = r.cnt - 1 := by bv_omega
  simp only [Regs.placeBit, hcnt, BitVec.ofNat_or, BitVec.ofNat_toNat, BitVec.setWidth_eq]

theorem execPutbit_of_room {s : State} (hu : s.regs.Usable .write) (h2 : 2 ≤ s.regs.cnt.toNat) :
    execPutbit s = .next ((s.setRegs (s.regs.placeBit (operandBit s.operandA))).respond .ok 0) := by
  have hpos : s.regs.cnt ≠ 0 := fun h => by simp [h] at h2
  have hroom : (s.regs.placeBit (operandBit s.operandA)).cnt ≠ 0 := by
    rw [Regs.placeBit_eq _ (by omega)]
    bv_omega
  rw [execPutbit_of_usable hu, if_neg hpos, putbitPlace_eq, if_neg hroom]

theorem execPutbit_of_last_place {s : State} (hu : s.regs.Usable .write) (h1 : s.regs.cnt = 1) :
    execPutbit s = putbitEmit (s.setRegs (s.regs.placeBit (operandBit s.operandA))) := by
  have hpos : s.regs.cnt ≠ 0 := by simp [h1]
  have hfull : (s.regs.placeBit (operandBit s.operandA)).cnt = 0 := by simp [h1]
  rw [execPutbit_of_usable hu, if_neg hpos, putbitPlace_eq, if_pos hfull]

/-- Settles O41. -/
theorem putbitPlacesTheBit : Obligations.PutbitPlacesTheBit := by
  intro s ha hm hf h2 _
  change execPutbit s = _
  rw [execPutbit_of_room ⟨ha, hm, hf⟩ h2, Regs.placeBit_eq _ (by omega), State.respond_eq_after]
  rfl

theorem putbitEmit_of_ok {s : State} {d : Device} (hd : s.device.write s.regs.buf = some (.ok, d)) :
    putbitEmit s = .next (s.after s.regs.emitted d [.portWrite s.regs.buf .ok] .ok 0) := by
  simp only [putbitEmit, State.portWrite, hd]
  rfl

theorem putbitEmit_of_err {s : State} {d : Device} (hd : s.device.write s.regs.buf = some (.err, d)) :
    putbitEmit s = .next (s.after s.regs.emitFailed d [.portWrite s.regs.buf .err] .ioError 0) := by
  simp only [putbitEmit, State.portWrite, hd]
  rfl

/-- Settles O42: the byte emitted is the one PUTBIT's update leaves in `BUF`. -/
theorem putbitEmitsACompletedByte : Obligations.PutbitEmitsACompletedByte := by
  intro s b d ha hm hf h1 hb
  have hplace : s.regs.placeBit (operandBit s.operandA) = { s.regs with cnt := 0, buf := b } := by
    have hbit : BitVec.ofNat 8 (operandBit s.operandA) = if s.operandA = 0 then 0 else 1 := apply_ite ..
    rw [Regs.placeBit_eq _ (by simp [h1]), hb, h1, ← hbit]
    rfl
  change (_ → execPutbit s = _) ∧ (_ → execPutbit s = _)
  rw [execPutbit_of_last_place ⟨ha, hm, hf⟩ h1, hplace]
  exact ⟨fun hd => putbitEmit_of_ok hd, fun hd => putbitEmit_of_err hd⟩

/-! ### Masking -/

/-- The latched command enters PUTBITS only through its field (R113). -/
theorem execPutbits_relatch_of_field {c : Command} {s : State} {w : Nat}
    (hfield : operandField w c.a = operandField w s.operandA) :
    execPutbits w (s.relatch c) = Outcome.relatch c (execPutbits w s) := by
  simp only [execPutbits, State.relatch_regs, State.relatch_operandA, hfield, raise_relatch, putbitsLoop_relatch,
    apply_ite (Outcome.relatch c)]

/-- Settles O46: operands that agree modulo `2^W` are the same field. -/
theorem putbitsUsesOnlyTheLowBits : Obligations.PutbitsUsesOnlyTheLowBits := by
  intro s t w c a hmod h
  have hfield : operandField w a = operandField w c.a := by simp only [operandField, hmod]
  change execPutbits w (s.relatch c) = .next t at h
  change execPutbits w ((s.relatch c).relatch { c with a := a }) = .next (t.relatch { c with a := a })
  rw [execPutbits_relatch_of_field hfield, h]
  rfl

end Sys2Proof.Machine
end

section
/-! SUPPORT. PUTBITS as an append to the bit stream (R53, R111): what a fill does to the pending bits, the loop's turns
over the bytes the device takes, and the emit that fails (R115). -/

namespace Sys2Proof.Machine

open Sys2Proof

/-! ### Lists of bits (R52, R53) -/

@[simp] theorem bitsOf_length (n v : Nat) : (bitsOf n v).length = n := by
  induction n with
  | zero => rfl
  | succ n ih => rw [bitsOf, List.length_cons, ih]

theorem bitsOf_eq_iff {n v v' : Nat} : bitsOf n v = bitsOf n v' ↔ ∀ i < n, v.testBit i = v'.testBit i := by
  induction n with
  | zero => simp [bitsOf]
  | succ n ih => rw [bitsOf, bitsOf, List.cons.injEq, ih, Nat.forall_lt_succ_right, and_comm]

theorem bitsOf_mod (n v : Nat) : bitsOf n (v % 2 ^ n) = bitsOf n v :=
  bitsOf_eq_iff.2 fun i hi => by simp [Nat.testBit_mod_two_pow, hi]

/-- A byte is determined by its bits. -/
theorem byte_eq_of_bitsOf_eq {b c : Byte} (h : bitsOf 8 b.toNat = bitsOf 8 c.toNat) : b = c :=
  BitVec.eq_of_getLsbD_eq (bitsOf_eq_iff.1 h)

/-- Every list of bits is the bits of a number. -/
theorem exists_bitsOf_eq (l : List Bool) : ∃ v, bitsOf l.length v = l := by
  induction l with
  | nil => exact ⟨0, rfl⟩
  | cons b l ih =>
    obtain ⟨v, hv⟩ := ih
    refine ⟨2 ^ l.length * b.toNat + v % 2 ^ l.length, ?_⟩
    have hlow : v % 2 ^ l.length < 2 ^ l.length := Nat.mod_lt _ (Nat.two_pow_pos _)
    have htail : bitsOf l.length (2 ^ l.length * b.toNat + v % 2 ^ l.length) = l := by
      rw [← bitsOf_mod, Nat.mul_add_mod, Nat.mod_mod, bitsOf_mod, hv]
    rw [List.length_cons, bitsOf, htail, Nat.testBit_two_pow_mul_add _ hlow]
    cases b <;> simp

theorem exists_byte_of_bits {l : List Bool} (h : l.length = 8) : ∃ b : Byte, bitsOf 8 b.toNat = l := by
  obtain ⟨v, hv⟩ := exists_bitsOf_eq l
  rw [h] at hv
  exact ⟨BitVec.ofNat 8 v, by rw [BitVec.toNat_ofNat, bitsOf_mod, hv]⟩

theorem streamBits_cons (b : Byte) (bs : Bytes) :
    streamBits (b :: bs) = bitsOf 8 b.toNat ++ streamBits bs := rfl

theorem streamBits_append (bs cs : Bytes) : streamBits (bs ++ cs) = streamBits bs ++ streamBits cs :=
  List.flatMap_append

theorem streamBits_length (bs : Bytes) : (streamBits bs).length = 8 * bs.length := by
  induction bs with
  | nil => rfl
  | cons b bs ih => rw [streamBits_cons, List.length_append, bitsOf_length, ih, List.length_cons]; omega

/-- A bit stream begins with as many whole bytes as it is long. -/
theorem exists_bytes_prefix {n : Nat} {l : List Bool} (h : 8 * n ≤ l.length) :
    ∃ bs : Bytes, bs.length = n ∧ streamBits bs <+: l := by
  induction n generalizing l with
  | zero => exact ⟨[], rfl, List.nil_prefix⟩
  | succ n ih =>
    obtain ⟨b, hb⟩ := exists_byte_of_bits (l := l.take 8) (by rw [List.length_take]; omega)
    obtain ⟨bs, hlen, hbs⟩ := ih (l := l.drop 8) (by rw [List.length_drop]; omega)
    have hprefix := (List.prefix_append_right_inj (l.take 8)).2 hbs
    rw [List.take_append_drop] at hprefix
    exact ⟨b :: bs, by rw [List.length_cons, hlen], by rwa [streamBits_cons, hb]⟩

/-! ### What a fill does to the pending bits (R25, R111) -/

/-- A Write stream between two bytes: 1 to 8 places are free, and they hold zeros (law 2 of R32). -/
structure Regs.Fillable (r : Regs) : Prop where
  pos : 1 ≤ r.cnt.toNat
  le : r.cnt.toNat ≤ 8
  zeros : r.buf.toNat % 2 ^ r.cnt.toNat = 0

theorem Regs.emitted_fillable (r : Regs) : r.emitted.Fillable := ⟨by simp, by simp, by simp⟩

theorem Regs.pendingBits_length (r : Regs) : r.pendingBits.length = 8 - r.cnt.toNat := bitsOf_length ..

theorem Regs.fillRest_cnt_toNat {r : Regs} (w v : Nat) (h8 : r.cnt.toNat ≤ 8) :
    (r.fillRest w v).cnt.toNat = r.cnt.toNat - w := ofNat4_toNat_of_le (by omega)

/-- The last `w` bits of the field lie from place `CNT - w` on, above what stands in `BUF`. -/
theorem Regs.fillRest_buf_testBit {r : Regs} (w v : Nat) {i : Nat} (hi : i < 8) :
    (r.fillRest w v).buf.toNat.testBit i =
      (r.buf.toNat.testBit i ||
        (decide (r.cnt.toNat - w ≤ i) && decide (i - (r.cnt.toNat - w) < w)) && v.testBit (i - (r.cnt.toNat - w))) := by
  simp only [Regs.fillRest_buf, lowBits, BitVec.toNat_ofNat, Nat.testBit_mod_two_pow, Nat.testBit_or,
    Nat.testBit_shiftLeft, hi, decide_true, Bool.true_and, Bool.and_assoc, ge_iff_le]

/-- Filling `w` free places appends `w` bits to the pending ones. -/
theorem Regs.fillRest_pendingBits {r : Regs} {w v : Nat} (hr : r.Fillable) (hw : w ≤ r.cnt.toNat) :
    (r.fillRest w v).pendingBits = r.pendingBits ++ bitsOf w v := by
  have h8 := hr.le
  have hzero : ∀ i < r.cnt.toNat, r.buf.toNat.testBit i = false := fun i hi => by
    simpa [hr.zeros, hi] using (Nat.testBit_mod_two_pow r.buf.toNat r.cnt.toNat i).symm
  have hlen : 8 - (r.fillRest w v).cnt.toNat = 8 - r.cnt.toNat + w := by rw [Regs.fillRest_cnt_toNat w v h8]; omega
  rw [Regs.pendingBits, hlen, bitsOf_add, Regs.fillRest_cnt_toNat w v h8]
  congr 1 <;> refine bitsOf_eq_iff.2 fun i hi => ?_ <;> simp only [Nat.testBit_shiftRight]
  · have hplace : r.cnt.toNat - w + (w + i) = r.cnt.toNat + i := by omega
    have habove : ¬ r.cnt.toNat + i - (r.cnt.toNat - w) < w := by omega
    rw [hplace, Regs.fillRest_buf_testBit w v (by omega)]
    simp [habove]
  · rw [Regs.fillRest_buf_testBit w v (by omega), hzero _ (by omega), Nat.add_sub_cancel_left]
    simp [hi]

theorem Regs.fillRest_fillable {r : Regs} {w : Nat} (v : Nat) (hr : r.Fillable) (hw : w < r.cnt.toNat) :
    (r.fillRest w v).Fillable := by
  have h8 := hr.le
  have hc := Regs.fillRest_cnt_toNat w v h8
  refine ⟨by omega, by omega, ?_⟩
  rw [hc]
  exact ofNat_or_shiftLeft_mod_eq_zero (Nat.sub_le _ _) h8 hr.zeros

/-- A full byte is the fill of every free place, with `CNT` left as it was. -/
theorem Regs.fillRest_all (r : Regs) (left v : Nat) :
    r.fillRest r.cnt.toNat (v >>> left) = { r.fillByte left v with cnt := 0 } := by
  simp [Regs.fillRest, Regs.fillByte]

/-- A turn of the loop moves the pending bits and the next `CNT` bits of the field into the byte to emit. -/
theorem Regs.bitsOf_fillByte {r : Regs} {w v : Nat} (hr : r.Fillable) (hw : r.cnt.toNat ≤ w) :
    bitsOf 8 (r.fillByte (w - r.cnt.toNat) v).buf.toNat ++ bitsOf (w - r.cnt.toNat) v =
      r.pendingBits ++ bitsOf w v := by
  obtain ⟨left, rfl⟩ := Nat.exists_eq_add_of_le hw
  have hpending := Regs.fillRest_pendingBits (v := v >>> left) hr le_rfl
  rw [Regs.fillRest_all] at hpending
  rw [Nat.add_sub_cancel_left, bitsOf_add, ← List.append_assoc, ← hpending]
  rfl

/-- The next byte of the stream is the one the next turn of the loop emits. -/
theorem Regs.fillByte_buf_of_prefix {r : Regs} {w v : Nat} {b : Byte} {l : List Bool} (hr : r.Fillable)
    (h : bitsOf 8 b.toNat ++ l <+: r.pendingBits ++ bitsOf w v) :
    r.cnt.toNat ≤ w ∧ (r.fillByte (w - r.cnt.toNat) v).buf = b ∧ l <+: bitsOf (w - r.cnt.toNat) v := by
  have hw : r.cnt.toNat ≤ w := by
    have hlen := h.length_le
    have h8 := hr.le
    simp only [List.length_append, bitsOf_length, Regs.pendingBits_length] at hlen
    omega
  rw [← Regs.bitsOf_fillByte hr hw] at h
  obtain ⟨tail, htail⟩ := h
  rw [List.append_assoc] at htail
  obtain ⟨hbyte, hrest⟩ := List.append_inj htail (by simp)
  exact ⟨hw, (byte_eq_of_bitsOf_eq hbyte).symm, tail, hrest⟩

/-! ### The loop over the bytes the device takes -/

/-- The register set with another accumulator and count. -/
def Regs.withByte (buf : BitVec 8) (cnt : BitVec 4) (r : Regs) : Regs := { r with buf := buf, cnt := cnt }

/-- The state after the bytes have been written, each answered `OK`. -/
def State.wrote (r : Regs) (d : Device) (bs : Bytes) (s : State) : State :=
  { s with regs := r, device := d, traffic := s.traffic ++ bs.map fun b => .portWrite b .ok }

theorem State.wrote_nil (s : State) : s.wrote s.regs s.device [] = s := by
  simp [State.wrote]

theorem State.wrote_cons (r r' : Regs) (d d' : Device) (b : Byte) (bs : Bytes) (s : State) :
    ((s.transacted d (.portWrite b .ok)).setRegs r).wrote r' d' bs = s.wrote r' d' (b :: bs) := by
  simp [State.wrote, State.transacted, State.setRegs]

theorem putbitsEmit_of_err {loop : State → Outcome} {w : Nat} {v : Word64} {s : State} {d : Device}
    (hd : s.device.write s.regs.buf = some (.err, d)) :
    putbitsEmit loop w v s = .next (s.after s.regs.emitFailed d [.portWrite s.regs.buf .err] .ioError 0) := by
  simp only [putbitsEmit, State.portWrite, hd]
  rfl

theorem Device.takes_cons_eq_some {b : Byte} {bs : Bytes} {d d' : Device} :
    d.takes (b :: bs) = some d' ↔ ∃ d₁, d.write b = some (.ok, d₁) ∧ d₁.takes bs = some d' := by
  rcases h : d.write b with _ | ⟨_ | _, d₁⟩ <;> simp [Device.takes, h]

/-- A device that accepts writes takes any bytes. -/
theorem Device.exists_takes {bs : Bytes} {d : Device} (h : d.acceptsWrites bs.length) : ∃ d', d.takes bs = some d' := by
  induction bs generalizing d with
  | nil => exact ⟨d, rfl⟩
  | cons b bs ih =>
    obtain ⟨d₁, hwrite, hrest⟩ := h b
    obtain ⟨d', htakes⟩ := ih hrest
    exact ⟨d', Device.takes_cons_eq_some.2 ⟨d₁, hwrite, htakes⟩⟩

/-- While the device takes the bytes of the stream the loop emits exactly these, and the stream stays what it is. -/
theorem putbitsLoop_of_takes {bs : Bytes} {fuel w : Nat} {v : Word64} {s : State} {d : Device}
    (hr : s.regs.Fillable) (hbs : streamBits bs <+: s.regs.pendingBits ++ bitsOf w v.toNat)
    (htakes : s.device.takes bs = some d) :
    ∃ w' buf cnt, (s.regs.withByte buf cnt).Fillable ∧
      s.regs.pendingBits ++ bitsOf w v.toNat =
        streamBits bs ++ ((s.regs.withByte buf cnt).pendingBits ++ bitsOf w' v.toNat) ∧
      putbitsLoop (fuel + bs.length) w v s = putbitsLoop fuel w' v (s.wrote (s.regs.withByte buf cnt) d bs) := by
  induction bs generalizing w s with
  | nil =>
    obtain rfl : s.device = d := Option.some.inj htakes
    exact ⟨w, s.regs.buf, s.regs.cnt, hr, rfl, (congrArg (putbitsLoop fuel w v) s.wrote_nil).symm⟩
  | cons b bs ih =>
    obtain ⟨d₁, hwrite, hd⟩ := Device.takes_cons_eq_some.1 htakes
    obtain ⟨hw, rfl, hrest⟩ := Regs.fillByte_buf_of_prefix hr hbs
    obtain ⟨w', buf, cnt, hr', hstream, hloop⟩ :=
      ih (s := (s.transacted d₁ (.portWrite _ .ok)).setRegs (s.regs.fillByte _ _).emitted)
        (Regs.emitted_fillable _) hrest hd
    refine ⟨w', buf, cnt, hr', ?_, ?_⟩
    · rw [← Regs.bitsOf_fillByte hr hw, streamBits_cons, List.append_assoc]
      exact congrArg _ hstream
    · rw [List.length_cons, ← Nat.add_assoc, putbitsLoop_succ, if_pos hw, putbitsEmit_of_ok hwrite, ← State.wrote_cons]
      exact hloop

theorem bitsOf_operandField (w : Nat) (a : Word64) : bitsOf w (operandField w a).toNat = bitsOf w a.toNat := by
  have hlt : a.toNat % 2 ^ w < 2 ^ 64 := (Nat.mod_le _ _).trans_lt a.isLt
  rw [operandField, BitVec.toNat_ofNat, Nat.mod_eq_of_lt hlt, bitsOf_mod]

/-- A PUTBITS whose first bytes the device takes has them written and fuel left for another turn. -/
theorem execPutbits_of_takes {bs : Bytes} {w : Nat} {s : State} {d : Device} (hu : s.regs.Usable .write)
    (hr : s.regs.Fillable) (hw : w ≤ 64) (hbs : streamBits bs <+: s.regs.pendingBits ++ bitsOf w s.operandA.toNat)
    (htakes : s.device.takes bs = some d) :
    ∃ fuel w' buf cnt v, (s.regs.withByte buf cnt).Fillable ∧
      s.regs.pendingBits ++ bitsOf w s.operandA.toNat =
        streamBits bs ++ ((s.regs.withByte buf cnt).pendingBits ++ bitsOf w' v.toNat) ∧
      execPutbits w s = putbitsLoop (fuel + 1) w' v (s.wrote (s.regs.withByte buf cnt) d bs) := by
  have hlen := hbs.length_le
  have h1 := hr.pos
  simp only [streamBits_length, List.length_append, Regs.pendingBits_length, bitsOf_length] at hlen
  obtain ⟨fuel, hfuel⟩ : ∃ fuel, loopFuel w = fuel + 1 + bs.length := ⟨w + 1 - bs.length, by rw [loopFuel]; omega⟩
  rw [← bitsOf_operandField] at hbs ⊢
  obtain ⟨w', buf, cnt, hr', hstream, hloop⟩ := putbitsLoop_of_takes (fuel := fuel + 1) hr hbs htakes
  exact ⟨fuel, w', buf, cnt, _, hr', hstream, by rw [execPutbits_of_usable hu hw, hfuel, hloop]⟩

/-- Settles O43: the bytes are those the stream begins with, and the loop ends with fewer bits than free places. -/
theorem putbitsAppendsTheFieldToTheStream : Obligations.PutbitsAppendsTheFieldToTheStream := by
  intro s w ha hm hf h1 h8 hzero hw haccepts
  have hlen : (s.regs.pendingBits ++ bitsOf w s.operandA.toNat).length = 8 - s.regs.cnt.toNat + w := by
    rw [List.length_append, Regs.pendingBits_length, bitsOf_length]
  obtain ⟨bs, hcount, hbs⟩ := exists_bytes_prefix (n := emitsMade w s.regs.cnt.toNat)
    (l := s.regs.pendingBits ++ bitsOf w s.operandA.toNat) (by rw [hlen, emitsMade]; omega)
  obtain ⟨d, htakes⟩ := Device.exists_takes (hcount ▸ haccepts)
  obtain ⟨fuel, w', buf, cnt, v, hr', hstream, hexec⟩ :=
    execPutbits_of_takes ⟨ha, hm, hf⟩ ⟨h1, h8, hzero⟩ hw hbs htakes
  have hw' : w' < (s.regs.withByte buf cnt).cnt.toNat := by
    have h8' := hr'.le
    simp only [hstream, List.length_append, streamBits_length, Regs.pendingBits_length, bitsOf_length, hcount,
      emitsMade] at hlen
    omega
  have hend := Regs.fillRest_fillable v.toNat hr' hw'
  refine ⟨bs, d, ((s.regs.withByte buf cnt).fillRest w' v.toNat).buf,
    ((s.regs.withByte buf cnt).fillRest w' v.toNat).cnt, ?_, htakes, hcount, ?_, hend.pos, hend.le, hend.zeros⟩
  · change execPutbits w s = _
    rw [hexec, putbitsLoop_succ, if_neg (by exact hw'.not_ge)]
    rfl
  · rw [hstream, ← Regs.fillRest_pendingBits hr' hw'.le]
    rfl

/-- Settles O44: once the bytes before it are taken, the next turn of the loop emits the byte that fails. -/
theorem failedEmitEndsPutbits : Obligations.FailedEmitEndsPutbits := by
  intro s w bs b d d' ha hm hf h1 h8 hzero hw hbs htakes hfails
  have hbefore : streamBits bs <+: s.regs.pendingBits ++ bitsOf w s.operandA.toNat :=
    (List.prefix_append _ _).trans (streamBits_append bs [b] ▸ hbs)
  obtain ⟨fuel, w', buf, cnt, v, hr', hstream, hexec⟩ :=
    execPutbits_of_takes ⟨ha, hm, hf⟩ ⟨h1, h8, hzero⟩ hw hbefore htakes
  rw [hstream, streamBits_append, List.prefix_append_right_inj] at hbs
  obtain ⟨hw', rfl, -⟩ := Regs.fillByte_buf_of_prefix hr' hbs
  change execPutbits w s = _
  rw [hexec, putbitsLoop_succ, if_pos (by exact hw'), putbitsEmit_of_err (by exact hfails)]
  simp [State.after, State.wrote, Regs.withByte, Regs.emitFailed, State.setRegs]

end Sys2Proof.Machine
end

section
/-! SUPPORT. A PUTBITS and the PUTBITs of its bits (R112): the fill of `w` places is `w` placings of a bit, so both
reach each emit with the same byte, and after the emit they go on from the same registers or both end in the fault state. -/

namespace Sys2Proof.Machine

open Sys2Proof

/-! ### A fill is as many placings of a bit -/

/-- Filling `m + n` places is filling `m` with the high bits and then `n` with the low ones. -/
theorem Regs.fillRest_add {r : Regs} {m n : Nat} (v : Nat) (h8 : r.cnt.toNat ≤ 8) (hmn : m + n ≤ r.cnt.toNat) :
    r.fillRest (m + n) v = (r.fillRest m (v >>> n)).fillRest n v := by
  have hc := Regs.fillRest_cnt_toNat m (v >>> n) h8
  have hcnt : (r.fillRest (m + n) v).cnt = ((r.fillRest m (v >>> n)).fillRest n v).cnt := by
    rw [Regs.fillRest_cnt, Regs.fillRest_cnt (r := r.fillRest m _), hc, Nat.sub_sub]
  have hbuf : (r.fillRest (m + n) v).buf = ((r.fillRest m (v >>> n)).fillRest n v).buf := by
    refine BitVec.eq_of_getLsbD_eq fun i hi => ?_
    change Nat.testBit _ i = Nat.testBit _ i
    rw [Regs.fillRest_buf_testBit _ _ hi, Regs.fillRest_buf_testBit _ _ hi, Regs.fillRest_buf_testBit _ _ hi, hc,
      Nat.testBit_shiftRight]
    obtain ⟨k, hk⟩ : ∃ k, r.cnt.toNat = k + n + m := ⟨r.cnt.toNat - (m + n), by omega⟩
    rw [hk, Nat.add_sub_cancel, Nat.add_sub_cancel, Nat.add_assoc, Nat.add_comm n m, Nat.add_sub_cancel]
    rcases Nat.lt_or_ge i k with hbelow | habove
    · simp [hbelow.not_ge, (Nat.lt_add_right n hbelow).not_ge]
    · obtain ⟨j, rfl⟩ := Nat.exists_eq_add_of_le habove
      rcases Nat.lt_or_ge j n with hlow | hhigh
      · simp [hlow, hlow.not_ge, Nat.lt_add_left m hlow]
      · obtain ⟨l, rfl⟩ := Nat.exists_eq_add_of_le hhigh
        simp [Nat.add_sub_add_left, Nat.add_comm m n]
  simp only [Regs.fillRest, Regs.mk.injEq] at hcnt hbuf ⊢
  simp [hcnt, hbuf]

/-- Placing a bit of a number, handed to PUTBIT as 0 or 1, is filling one place. -/
theorem Regs.placeBit_testBit (r : Regs) (v w : Nat) :
    r.placeBit (operandBit (if v.testBit w then 1 else 0)) = r.fillRest 1 (v >>> w) := by
  have hbit : operandBit (if v.testBit w then 1 else 0) = lowBits 1 (v >>> w) := by
    rw [lowBits, Nat.pow_one, Nat.shiftRight_eq_div_pow, ← Nat.toNat_testBit]
    cases v.testBit w <;> rfl
  rw [Regs.placeBit, Regs.fillRest, hbit]

/-! ### States that agree on the stream -/

/-- The two states agree on the registers, the device and the transactions made. -/
structure SameStream (s t : State) : Prop where
  regs : t.regs = s.regs
  device : t.device = s.device
  traffic : t.traffic = s.traffic

theorem SameStream.trans {s t u : State} (h : SameStream s t) (k : SameStream t u) : SameStream s u :=
  ⟨k.regs.trans h.regs, k.device.trans h.device, k.traffic.trans h.traffic⟩

theorem SameStream.setRegs {s t : State} (h : SameStream s t) (r : Regs) : SameStream (s.setRegs r) (t.setRegs r) :=
  ⟨rfl, h.device, h.traffic⟩

/-! ### PUTBITs up to the next emit -/

theorem putbitSequence_cons_of_next {b : Bool} {bs : List Bool} {s t : State}
    (h : runWith .putbit (if b then 1 else 0) s = .next t) : putbitSequence (b :: bs) s = putbitSequence bs t := by
  rw [putbitSequence, h]

theorem runWith_putbit_of_room {s : State} {v w : Nat} (hu : s.regs.Usable .write) (h2 : 2 ≤ s.regs.cnt.toNat) :
    ∃ t, runWith .putbit (if v.testBit w then 1 else 0) s = .next t ∧
      SameStream (s.setRegs (s.regs.fillRest 1 (v >>> w))) t :=
  ⟨_, execPutbit_of_room hu h2, s.regs.placeBit_testBit v w, rfl, rfl⟩

theorem runWith_putbit_of_last_place {s : State} {v w : Nat} (hu : s.regs.Usable .write) (h1 : s.regs.cnt = 1) :
    ∃ t, runWith .putbit (if v.testBit w then 1 else 0) s = putbitEmit t ∧
      SameStream (s.setRegs (s.regs.fillRest 1 (v >>> w))) t :=
  ⟨_, execPutbit_of_last_place hu h1, s.regs.placeBit_testBit v w, rfl, rfl⟩

/-- While a place stays free the PUTBITs of the bits of a field fill it in. -/
theorem putbitSequence_of_room {s : State} {w : Nat} (v : Nat) (rest : List Bool) (hu : s.regs.Usable .write)
    (h8 : s.regs.cnt.toNat ≤ 8) (hw : w < s.regs.cnt.toNat) :
    ∃ t, putbitSequence (bitsOf w v ++ rest) s = putbitSequence rest t ∧
      SameStream (s.setRegs (s.regs.fillRest w v)) t := by
  induction w generalizing s with
  | zero => exact ⟨s, rfl, by rw [Regs.fillRest_zero]; exact ⟨rfl, rfl, rfl⟩⟩
  | succ w ih =>
    obtain ⟨t₁, hfirst, h₁⟩ := runWith_putbit_of_room (v := v) (w := w) hu (by omega)
    have hregs : t₁.regs = s.regs.fillRest 1 (v >>> w) := h₁.regs
    have hcnt := Regs.fillRest_cnt_toNat 1 (v >>> w) h8
    obtain ⟨t, hrest, h⟩ := ih (s := t₁) (by rw [hregs]; exact ⟨hu.active, hu.mode, hu.fault⟩)
      (by rw [hregs]; omega) (by rw [hregs]; omega)
    refine ⟨t, (putbitSequence_cons_of_next hfirst).trans hrest, ?_, h.device.trans h₁.device,
      h.traffic.trans h₁.traffic⟩
    rw [h.regs, Nat.add_comm w 1]
    change t₁.regs.fillRest w v = s.regs.fillRest (1 + w) v
    rw [hregs, Regs.fillRest_add v h8 (by omega)]

/-- The PUTBITs that fill every free place end with the emit of the byte. -/
theorem putbitSequence_of_full {s : State} (v : Nat) (rest : List Bool) (hu : s.regs.Usable .write)
    (h1 : 1 ≤ s.regs.cnt.toNat) (h8 : s.regs.cnt.toNat ≤ 8) :
    ∃ t, SameStream (s.setRegs (s.regs.fillRest s.regs.cnt.toNat v)) t ∧
      ∀ u, putbitEmit t = .next u → putbitSequence (bitsOf s.regs.cnt.toNat v ++ rest) s = putbitSequence rest u := by
  obtain ⟨c, hc⟩ : ∃ c, s.regs.cnt.toNat = c + 1 := ⟨s.regs.cnt.toNat - 1, by omega⟩
  obtain ⟨t₁, hfirst, h₁⟩ := putbitSequence_of_room (w := c) (v >>> 1) (v.testBit 0 :: rest) hu h8 (by omega)
  have hregs : t₁.regs = s.regs.fillRest c (v >>> 1) := h₁.regs
  obtain ⟨t, hlast, h⟩ := runWith_putbit_of_last_place (s := t₁) (v := v) (w := 0)
    (by rw [hregs]; exact ⟨hu.active, hu.mode, hu.fault⟩)
    (by rw [hregs, Regs.fillRest_cnt, hc, Nat.add_sub_cancel_left]; rfl)
  rw [hc]
  refine ⟨t, ⟨?_, h.device.trans h₁.device, h.traffic.trans h₁.traffic⟩, fun u hemit => ?_⟩
  · rw [h.regs, State.setRegs_regs, State.setRegs_regs, hregs, Regs.fillRest_add v h8 (by omega), Nat.shiftRight_zero]
  · rw [bitsOf_add, List.append_assoc]
    exact hfirst.trans (putbitSequence_cons_of_next (hlast.trans hemit))

/-- On a faulted Write stream every PUTBIT answers `IOError` and does nothing (R174). -/
theorem putbitSequence_of_fault {s : State} (bits : List Bool) (ha : s.regs.active = true) (hm : s.regs.mode = .write)
    (hf : s.regs.fault = true) (hio : s.response = some ⟨.ioError, 0⟩) :
    ∃ t, putbitSequence bits s = .next t ∧ SameStream s t ∧ t.response = some ⟨.ioError, 0⟩ := by
  induction bits generalizing s with
  | nil => exact ⟨s, rfl, ⟨rfl, rfl, rfl⟩, hio⟩
  | cons b bits ih =>
    have hfirst : runWith .putbit (if b then 1 else 0) s =
        .next ((s.relatch (plainCommand .putbit (if b then 1 else 0))).respond .ioError 0) := by
      simp [runWith, exec, execPutbit, ha, hm, hf, State.relatch]
    obtain ⟨t, ht, hsame, hresp⟩ := ih (s := (s.relatch _).respond .ioError 0) ha hm hf rfl
    exact ⟨t, (putbitSequence_cons_of_next hfirst).trans ht, ⟨hsame.regs, hsame.device, hsame.traffic⟩, hresp⟩

/-! ### The whole field -/

section

variable {s t : State} {r : Regs} {d : Device} (h : SameStream (s.setRegs { r with cnt := 0 }) t)

include h

/-- The emit of a PUTBIT does what that of a PUTBITS does, which leaves `CNT` as it was. -/
theorem SameStream.putbitEmit_ok (hd : s.device.write r.buf = some (.ok, d)) :
    ∃ u, putbitEmit t = .next u ∧
      SameStream ((s.transacted d (.portWrite r.buf .ok)).setRegs r.emitted) u := by
  obtain ⟨hregs, hdevice, htraffic⟩ := h
  have hd' : t.device.write t.regs.buf = some (.ok, d) := by rw [hdevice, hregs]; exact hd
  refine ⟨_, putbitEmit_of_ok hd', ?_, rfl, ?_⟩
  · change t.regs.emitted = _
    rw [hregs]
    rfl
  · change t.traffic ++ _ = s.traffic ++ _
    rw [htraffic, hregs]
    rfl

theorem SameStream.putbitEmit_err (hd : s.device.write r.buf = some (.err, d)) :
    ∃ u, putbitEmit t = .next u ∧ u.response = some ⟨.ioError, 0⟩ ∧
      SameStream (s.after r.emitFailed d [.portWrite r.buf .err] .ioError 0) u := by
  obtain ⟨hregs, hdevice, htraffic⟩ := h
  have hd' : t.device.write t.regs.buf = some (.err, d) := by rw [hdevice, hregs]; exact hd
  refine ⟨_, putbitEmit_of_err hd', rfl, ?_, rfl, ?_⟩
  · change t.regs.emitFailed = _
    rw [hregs]
    rfl
  · change t.traffic ++ _ = s.traffic ++ _
    rw [htraffic, hregs]
    rfl

end

/-- The loop of PUTBITS and the PUTBITs of the bits still to put, from states that agree on the stream. -/
theorem putbitsLoop_sameStream {fuel w : Nat} {v : Word64} {s s₀ : State} (h₀ : SameStream s s₀)
    (hu : s.regs.Usable .write) (h1 : 1 ≤ s.regs.cnt.toNat) (h8 : s.regs.cnt.toNat ≤ 8) (hfuel : w < fuel)
    (hd : s.device.answersWrites (emitsMade w s.regs.cnt.toNat)) :
    ∃ t u, putbitsLoop fuel w v s = .next t ∧ putbitSequence (bitsOf w v.toNat) s₀ = .next u ∧ SameStream t u ∧
      (t.response = some ⟨.ioError, 0⟩ → u.response = some ⟨.ioError, 0⟩) := by
  induction fuel generalizing w s s₀ with
  | zero => omega
  | succ fuel ih =>
    have hregs₀ := h₀.regs
    rw [putbitsLoop_succ]
    split
    case isTrue hw =>
      obtain ⟨left, hleft⟩ : ∃ left, w = s.regs.cnt.toNat + left := Nat.exists_eq_add_of_le hw
      have hemits : emitsMade w s.regs.cnt.toNat = emitsMade left 8 + 1 := by rw [emitsMade, emitsMade]; omega
      rw [hemits] at hd
      obtain ⟨t₀, ht₀, hbits⟩ := putbitSequence_of_full (s := s₀) (v.toNat >>> left) (bitsOf left v.toNat)
        (hregs₀ ▸ hu) (hregs₀ ▸ h1) (hregs₀ ▸ h8)
      rw [hregs₀, Regs.fillRest_all] at ht₀
      rw [hregs₀, ← bitsOf_add, ← hleft] at hbits
      rw [hleft, Nat.add_sub_cancel_left, ← hleft]
      obtain ⟨r, d, hwrite, hrest⟩ := hd (s.regs.fillByte left v.toNat).buf
      cases r with
      | ok =>
        obtain ⟨u, hemit, h⟩ := ((h₀.setRegs _).trans ht₀).putbitEmit_ok hwrite
        rw [putbitsEmit_of_ok (by exact hwrite), hbits u hemit]
        exact ih h ⟨hu.active, hu.mode, hu.fault⟩ (by simp) (by simp) (by omega) hrest
      | err =>
        obtain ⟨u₁, hemit, hio₁, h₁⟩ := ((h₀.setRegs _).trans ht₀).putbitEmit_err hwrite
        obtain ⟨u, hrun, h, hio⟩ := putbitSequence_of_fault (bitsOf left v.toNat) (s := u₁)
          (by rw [h₁.regs]; exact hu.active) (by rw [h₁.regs]; exact hu.mode) (by rw [h₁.regs]; rfl) hio₁
        rw [putbitsEmit_of_err (by exact hwrite), hbits u₁ hemit]
        exact ⟨_, u, rfl, hrun, h₁.trans h, fun _ => hio⟩
    case isFalse hw =>
      obtain ⟨u, hrun, h⟩ := putbitSequence_of_room (s := s₀) v.toNat [] (hregs₀ ▸ hu) (hregs₀ ▸ h8)
        (by rw [hregs₀]; exact Nat.lt_of_not_le hw)
      rw [List.append_nil] at hrun
      rw [hregs₀] at h
      obtain ⟨hregs, hdevice, htraffic⟩ := (h₀.setRegs _).trans h
      exact ⟨_, u, rfl, hrun, ⟨hregs, hdevice, htraffic⟩, fun hio => by cases hio⟩

/-- Settles O45: the loop and the PUTBITs of its bits agree at every emit. -/
theorem putbitsEqualsItsPutbits : Obligations.PutbitsEqualsItsPutbits := by
  intro s w ha hm hf h1 h8 hw hd
  have hu : s.regs.Usable .write := ⟨ha, hm, hf⟩
  obtain ⟨t, u, ht, hrun, ⟨hregs, hdevice, htraffic⟩, hio⟩ := putbitsLoop_sameStream
    (fuel := loopFuel w) (v := operandField w s.operandA) (s := s) ⟨rfl, rfl, rfl⟩ hu h1 h8 (by rw [loopFuel]; omega) hd
  rw [bitsOf_operandField] at hrun
  exact ⟨t, u, (execPutbits_of_usable hu hw).trans ht, hrun, hregs.symm, htraffic.symm, hdevice.symm, hio⟩

end Sys2Proof.Machine
end

section
/-! SUPPORT. GETBIT as equations on the whole state (R130, R48, R136), and the reads after end-of-file (R132, R135). -/

namespace Sys2Proof.Machine

open Sys2Proof

/-! ### GETBIT -/

theorem Regs.bitAt_eq (r : Regs) (i : Nat) : r.bitAt i = if r.buf.getLsbD i then 1 else 0 := by
  have hbit : lowBits 1 (r.buf.toNat >>> i) = (r.buf.getLsbD i).toNat := by
    rw [lowBits, Nat.pow_one, Nat.shiftRight_eq_div_pow, ← Nat.toNat_testBit, BitVec.getLsbD]
  rw [Regs.bitAt, hbit]
  cases r.buf.getLsbD i <;> rfl

/-- GETBIT's update with a bit buffered: the cut to the width of `CNT` loses nothing. -/
theorem Regs.consume_one {r : Regs} (h1 : 1 ≤ r.cnt.toNat) : r.consume 1 = { r with cnt := r.cnt - 1 } := by
  have hcnt : BitVec.ofNat 4 (r.cnt.toNat - 1) = r.cnt - 1 := by bv_omega
  rw [Regs.consume, hcnt]

theorem execGetbit_of_buffered {s : State} (hu : s.regs.Usable .read) (h1 : 1 ≤ s.regs.cnt.toNat) :
    execGetbit s = .next (s.after { s.regs with cnt := s.regs.cnt - 1 } s.device [] .ok
      (if s.regs.buf.getLsbD (s.regs.cnt.toNat - 1) then 1 else 0)) := by
  have hpos : s.regs.cnt ≠ 0 := fun h => by simp [h] at h1
  have hcnt : (s.regs.cnt - 1).toNat = s.regs.cnt.toNat - 1 := by bv_omega
  rw [execGetbit_of_usable hu, if_neg hpos, Regs.bitAt_eq, Regs.consume_one h1, hcnt, State.respond_eq_after]
  rfl

theorem execGetbit_of_empty {s : State} (hu : s.regs.Usable .read) (h0 : s.regs.cnt = 0) :
    execGetbit s = getbitFetch s := by
  rw [execGetbit_of_usable hu, if_pos h0]

section

variable {s : State} {d : Device} (he : s.regs.eofs = false)
include he

theorem getbitFetch_of_byte {b : Byte} (hd : s.device.read = some (.byte b, d)) :
    getbitFetch s =
      .next (s.after (s.regs.load b 7) d [.portRead (.byte b)] .ok (if b.getLsbD 7 then 1 else 0)) := by
  simp only [getbitFetch, State.fetch, State.portRead, he, hd, Regs.bitAt_eq]
  rfl

theorem getbitFetch_of_eof (hd : s.device.read = some (.eof, d)) :
    getbitFetch s = .next (s.after s.regs.noteEof d [.portRead .eof] .endOfStream 0) := by
  simp only [getbitFetch, State.fetch, State.portRead, he, hd]
  rfl

theorem getbitFetch_of_err (hd : s.device.read = some (.err, d)) :
    getbitFetch s = .next (s.after s.regs.fetchFailed d [.portRead .err] .ioError 0) := by
  simp only [getbitFetch, State.fetch, State.portRead, he, hd]
  rfl

end

/-- Settles O47. -/
theorem getbitTakesTheNextBufferedBit : Obligations.GetbitTakesTheNextBufferedBit :=
  fun _ ha hm hf h1 _ => execGetbit_of_buffered ⟨ha, hm, hf⟩ h1

/-- Settles O48: one clause for each answer of the fetch. -/
theorem getbitFetchesWhenEmpty : Obligations.GetbitFetchesWhenEmpty := by
  intro s d ha hm hf h0 he
  have hfetch : exec .getbit s = getbitFetch s := execGetbit_of_empty ⟨ha, hm, hf⟩ h0
  rw [hfetch]
  exact ⟨fun _ => getbitFetch_of_byte he, getbitFetch_of_eof he, getbitFetch_of_err he⟩

/-- Settles O49: GETBIT's fetch issues nothing while `EOFS = 1`, and GETBITS checks `EOFS` before its loop. -/
theorem endOfFileIsSticky : Obligations.EndOfFileIsSticky := by
  intro s w ha hm hf h0 he hw
  rw [← State.respond_zero_eq_rejected]
  constructor
  · exact (execGetbit_of_empty ⟨ha, hm, hf⟩ h0).trans (getbitFetch_of_eofs he)
  · simp [exec, execGetbits, Config.maxField, ha, hm, hf, h0, he, hw]

end Sys2Proof.Machine
end

section
/-! SUPPORT. GETBITS as a read of the bit stream (R53, R131): what a gather does to the result, the loop's turns over
the bytes the device delivers, and the fetches that end it early (R133, R136). -/

namespace Sys2Proof.Machine

open Sys2Proof

/-! ### What a gather does to the result -/

theorem bitsOf_zero_value (n : Nat) : bitsOf n 0 = List.replicate n false :=
  bitsOf_eq_replicate_of_mod_eq_zero (Nat.zero_mod _)

/-- A number below `2^n` is determined by its bits. -/
theorem eq_of_bitsOf_eq {n v v' : Nat} (hv : v < 2 ^ n) (hv' : v' < 2 ^ n) (h : bitsOf n v = bitsOf n v') : v = v' := by
  have hbits := bitsOf_eq_iff.1 h
  refine Nat.eq_of_testBit_eq fun i => ?_
  rcases Nat.lt_or_ge i n with hi | hi
  · exact hbits i hi
  · have hpow : 2 ^ n ≤ 2 ^ i := Nat.pow_le_pow_right (by decide) hi
    rw [Nat.testBit_lt_two_pow (hv.trans_le hpow), Nat.testBit_lt_two_pow (hv'.trans_le hpow)]

/-- The result of a GETBITS of `W` bits in the middle of its loop (R131): the bits `g` stand in the highest places of
the field, and the `w` places below them hold zeros. -/
structure Gathered (W : Nat) (g : List Bool) (w : Nat) (res : Word64) : Prop where
  lt : res.toNat < 2 ^ W
  bits : bitsOf W res.toNat = g ++ List.replicate w false

theorem Gathered.start (w : Nat) : Gathered w [] w 0 := ⟨Nat.two_pow_pos w, bitsOf_zero_value w⟩

theorem Gathered.width {W w : Nat} {g : List Bool} {res : Word64} (h : Gathered W g w res) : W = g.length + w := by
  have hlen := congrArg List.length h.bits
  rwa [bitsOf_length, List.length_append, List.length_replicate] at hlen

/-- Putting `m` bits above the `n` still missing appends them to those gathered. -/
theorem Gathered.append {W m n : Nat} {g : List Bool} {res : Word64} (h : Gathered W g (m + n) res) (hW : W ≤ 64)
    (x : Nat) : Gathered W (g ++ bitsOf m x) n (BitVec.ofNat 64 (res.toNat ||| (lowBits m x <<< n))) := by
  have hwidth := h.width
  have hbits := h.bits
  rw [hwidth, bitsOf_add, ← bitsOf_zero_value] at hbits
  obtain ⟨hhigh, hlow⟩ := List.append_inj hbits (bitsOf_length _ _)
  have hpart : lowBits m x <<< n < 2 ^ W := by
    rw [hwidth, Nat.add_left_comm, Nat.shiftLeft_eq, pow_add, pow_add, ← mul_assoc]
    exact Nat.mul_lt_mul_of_pos_right ((Nat.mod_lt _ (Nat.two_pow_pos m)).trans_le
      (Nat.le_mul_of_pos_right _ (Nat.two_pow_pos _))) (Nat.two_pow_pos n)
  have hlt : res.toNat ||| (lowBits m x <<< n) < 2 ^ W := Nat.or_lt_two_pow h.lt hpart
  have hcut : (BitVec.ofNat 64 (res.toNat ||| (lowBits m x <<< n))).toNat = res.toNat ||| (lowBits m x <<< n) := by
    rw [BitVec.toNat_ofNat, Nat.mod_eq_of_lt (hlt.trans_le (Nat.pow_le_pow_right (by decide) hW))]
  have hzero : ∀ i < m + n, res.toNat.testBit i = false := fun i hi => by
    rw [bitsOf_eq_iff.1 hlow i hi, Nat.zero_testBit]
  refine ⟨hcut.symm ▸ hlt, ?_⟩
  rw [hcut, hwidth, ← Nat.add_assoc, bitsOf_add, bitsOf_add, ← bitsOf_zero_value]
  congr 1
  · congr 1
    · refine Eq.trans (bitsOf_eq_iff.2 fun i _ => ?_) hhigh
      have hplace : m + n + i = n + (m + i) := by omega
      simp [lowBits, Nat.testBit_mod_two_pow, hplace]
    · refine bitsOf_eq_iff.2 fun i hi => ?_
      simp [lowBits, Nat.testBit_mod_two_pow, hi, hzero (n + i) (by omega)]
  · refine bitsOf_eq_iff.2 fun i hi => ?_
    simp [hi.not_ge, hzero i (by omega)]

theorem Gathered.gatherAll {W left : Nat} {g : List Bool} {res : Word64} {r : Regs}
    (h : Gathered W g (r.cnt.toNat + left) res) (hW : W ≤ 64) :
    Gathered W (g ++ r.unconsumedBits) left (r.gatherAll left res) :=
  h.append hW r.buf.toNat

/-- The last bits of the field are the top ones of those unconsumed, and the others stay buffered. -/
theorem Gathered.gatherTop {W w : Nat} {g : List Bool} {res : Word64} {r : Regs} (h : Gathered W g w res) (hW : W ≤ 64)
    (h8 : r.cnt.toNat ≤ 8) (hw : w ≤ r.cnt.toNat) :
    (r.gatherTop w res).toNat < 2 ^ W ∧
      g ++ r.unconsumedBits = bitsOf W (r.gatherTop w res).toNat ++ (r.consume w).unconsumedBits := by
  have hfield : Gathered W (g ++ bitsOf w (r.buf.toNat >>> (r.cnt.toNat - w))) 0 (r.gatherTop w res) :=
    Gathered.append (n := 0) h hW _
  have hbuffered : r.cnt.toNat = w + (r.cnt.toNat - w) := by omega
  refine ⟨hfield.lt, ?_⟩
  rw [hfield.bits, List.replicate_zero, List.append_nil, List.append_assoc, Regs.unconsumedBits, Regs.unconsumedBits,
    Regs.consume_cnt, ofNat4_toNat_of_le (by omega), Regs.consume_buf, ← bitsOf_add, ← hbuffered]

/-! ### The loop over the bytes the device delivers -/

theorem Device.delivers_cons_eq_some {b : Byte} {bs : Bytes} {d d' : Device} :
    d.delivers (b :: bs) = some d' ↔ ∃ d₁, d.read = some (.byte b, d₁) ∧ d₁.delivers bs = some d' := by
  rcases h : d.read with _ | ⟨c | _ | _, d₁⟩
  case some.byte =>
    by_cases hc : c = b
    · subst hc
      simp [Device.delivers, h]
    · simp [Device.delivers, h, hc]
  all_goals simp [Device.delivers, h]

section

variable {loop : State → Outcome} {w : Nat} {res : Word64} {s : State} {d : Device} (he : s.regs.eofs = false)
include he

theorem getbitsFetch_of_byte {b : Byte} (hd : s.device.read = some (.byte b, d)) :
    getbitsFetch loop w res s = loop ((s.transacted d (.portRead (.byte b))).setRegs (s.regs.load b 8)) := by
  simp only [getbitsFetch, State.fetch, State.portRead, he, hd]
  rfl

theorem getbitsFetch_of_eof (hd : s.device.read = some (.eof, d)) :
    getbitsFetch loop w res s = .next (s.after s.regs.noteEof d [.portRead .eof] .ok res) := by
  simp only [getbitsFetch, State.fetch, State.portRead, he, hd]
  rfl

theorem getbitsFetch_of_err (hd : s.device.read = some (.err, d)) :
    getbitsFetch loop w res s = .next (s.after s.regs.fetchFailed d [.portRead .err] .ioError 0) := by
  simp only [getbitsFetch, State.fetch, State.portRead, he, hd]
  rfl

end

/-- The state after the bytes have been fetched. -/
def State.fetched (r : Regs) (d : Device) (bs : Bytes) (s : State) : State :=
  { s with regs := r, device := d, traffic := s.traffic ++ bs.map fun b => .portRead (.byte b) }

@[simp] theorem State.fetched_regs (r : Regs) (d : Device) (bs : Bytes) (s : State) : (s.fetched r d bs).regs = r := rfl

@[simp] theorem Regs.withByte_cnt (buf : BitVec 8) (cnt : BitVec 4) (r : Regs) : (r.withByte buf cnt).cnt = cnt := rfl

theorem State.fetched_nil (s : State) : s.fetched s.regs s.device [] = s := by
  simp [State.fetched]

theorem State.fetched_cons (r r' : Regs) (d d' : Device) (b : Byte) (bs : Bytes) (s : State) :
    ((s.transacted d (.portRead (.byte b))).setRegs r).fetched r' d' bs = s.fetched r' d' (b :: bs) := by
  simp [State.fetched, State.transacted, State.setRegs]

/-- While the device delivers the bytes the loop takes these in turn, and the stream stays what it is. -/
theorem getbitsLoop_of_delivers {bs : Bytes} {fuel W w : Nat} {g : List Bool} {res : Word64} {s : State} {d : Device}
    (hW : W ≤ 64) (hres : Gathered W g w res) (he : s.regs.eofs = false) (h8 : s.regs.cnt.toNat ≤ 8)
    (hbs : bs.length ≤ fetchesNeeded w s.regs.cnt.toNat) (hd : s.device.delivers bs = some d) :
    ∃ g' w' res' cnt, Gathered W g' w' res' ∧ cnt.toNat ≤ 8 ∧
      g ++ (s.regs.unconsumedBits ++ streamBits bs) =
        g' ++ (s.regs.withByte (lastByte s.regs.buf bs) cnt).unconsumedBits ∧
      getbitsLoop (fuel + bs.length) w res s =
        getbitsLoop fuel w' res' (s.fetched (s.regs.withByte (lastByte s.regs.buf bs) cnt) d bs) := by
  induction bs generalizing w g res s with
  | nil =>
    obtain rfl : s.device = d := Option.some.inj hd
    exact ⟨g, w, res, s.regs.cnt, hres, h8, congrArg _ (List.append_nil _),
      (congrArg (getbitsLoop fuel w res) s.fetched_nil).symm⟩
  | cons b bs ih =>
    obtain ⟨d₁, hread, hrest⟩ := Device.delivers_cons_eq_some.1 hd
    obtain ⟨left, rfl⟩ : ∃ left, w = s.regs.cnt.toNat + left + 1 :=
      Nat.exists_eq_add_of_lt (by rw [fetchesNeeded, List.length_cons] at hbs; omega)
    have hleft : s.regs.cnt.toNat + left + 1 - s.regs.cnt.toNat = left + 1 := by omega
    obtain ⟨g', w', res', cnt, hres', h8', hstream, hloop⟩ :=
      ih (s := (s.transacted d₁ (.portRead (.byte b))).setRegs (s.regs.load b 8)) (hres.gatherAll hW) he (by simp)
        (by change _ ≤ fetchesNeeded (left + 1) 8
            rw [fetchesNeeded, List.length_cons] at hbs
            rw [fetchesNeeded]
            omega) hrest
    refine ⟨g', w', res', cnt, hres', h8', ?_, ?_⟩
    · rw [streamBits_cons, ← List.append_assoc]
      exact hstream
    · rw [List.length_cons, ← Nat.add_assoc, getbitsLoop_succ, if_pos (by omega), hleft,
        getbitsFetch_of_byte (by exact he) (by exact hread), ← State.fetched_cons]
      exact hloop

/-- A GETBITS whose first bytes the device delivers has them fetched and fuel left for another turn. -/
theorem execGetbits_of_delivers {bs : Bytes} {w : Nat} {s : State} {d : Device} (hu : s.regs.Usable .read)
    (he : s.regs.eofs = false) (h8 : s.regs.cnt.toNat ≤ 8) (hw : w ≤ 64)
    (hbs : bs.length ≤ fetchesNeeded w s.regs.cnt.toNat) (hd : s.device.delivers bs = some d) :
    ∃ fuel g w' res cnt, Gathered w g w' res ∧ cnt.toNat ≤ 8 ∧
      s.regs.unconsumedBits ++ streamBits bs = g ++ (s.regs.withByte (lastByte s.regs.buf bs) cnt).unconsumedBits ∧
      w' + (s.regs.cnt.toNat + 8 * bs.length) = w + cnt.toNat ∧
      execGetbits w s =
        getbitsLoop (fuel + 1) w' res (s.fetched (s.regs.withByte (lastByte s.regs.buf bs) cnt) d bs) := by
  obtain ⟨fuel, hfuel⟩ : ∃ fuel, loopFuel w = fuel + 1 + bs.length :=
    ⟨w + 1 - bs.length, by rw [fetchesNeeded] at hbs; rw [loopFuel]; omega⟩
  obtain ⟨g, w', res, cnt, hres, hcnt, hstream, hloop⟩ :=
    getbitsLoop_of_delivers (fuel := fuel + 1) hw (Gathered.start w) he h8 hbs hd
  refine ⟨fuel, g, w', res, cnt, hres, hcnt, hstream, ?_, ?_⟩
  · have hwidth := hres.width
    have hlen := congrArg List.length hstream
    simp only [List.nil_append, List.length_append, streamBits_length, Regs.unconsumedBits, bitsOf_length] at hlen
    change s.regs.cnt.toNat + 8 * bs.length = g.length + cnt.toNat at hlen
    omega
  · rw [execGetbits_of_usable hu hw (by simp [he]), hfuel, hloop]

/-- Settles O50: with the bytes it needs fetched the loop ends, and takes the last bits from the top. -/
theorem getbitsTakesTheFieldFromTheStream : Obligations.GetbitsTakesTheFieldFromTheStream := by
  intro s w bs d ha hm hf he h8 hw hbs hd
  obtain ⟨fuel, g, w', res, cnt, hres, hcnt, hstream, hwidth, hexec⟩ :=
    execGetbits_of_delivers ⟨ha, hm, hf⟩ he h8 hw hbs.le hd
  have hw' : w' ≤ cnt.toNat := by rw [fetchesNeeded] at hbs; omega
  obtain ⟨hlt, hfield⟩ := hres.gatherTop (r := s.regs.withByte (lastByte s.regs.buf bs) cnt) hw hcnt hw'
  refine ⟨_, BitVec.ofNat 4 (cnt.toNat - w'), ?_, hlt, ?_, hstream.trans hfield⟩
  · change execGetbits w s = _
    rw [hexec, getbitsLoop_succ, if_neg (by exact hw'.not_gt)]
    rfl
  · rw [ofNat4_toNat_of_le (by omega)]
    omega

section

variable {bs : Bytes} {w : Nat} {s : State} {d : Device} (hu : s.regs.Usable .read) (he : s.regs.eofs = false)
  (h8 : s.regs.cnt.toNat ≤ 8) (hw : w ≤ 64) (hbs : bs.length < fetchesNeeded w s.regs.cnt.toNat)
  (hd : s.device.delivers bs = some d)
include hu he h8 hw hbs hd

/-- A GETBITS that needs more bytes than those delivered has gathered all the bits there are when it fetches again. -/
theorem execGetbits_fetches_again :
    ∃ loop res, Gathered w (s.regs.unconsumedBits ++ streamBits bs) (w - (s.regs.cnt.toNat + 8 * bs.length)) res ∧
      execGetbits w s = getbitsFetch loop (w - (s.regs.cnt.toNat + 8 * bs.length)) res
        (s.fetched (s.regs.withByte (lastByte s.regs.buf bs) 0) d bs) := by
  obtain ⟨fuel, g, w', res, cnt, hres, hcnt, hstream, hwidth, hexec⟩ := execGetbits_of_delivers hu he h8 hw hbs.le hd
  have hlt : cnt.toNat < w' := by rw [fetchesNeeded] at hbs; omega
  have hleft : w - (s.regs.cnt.toNat + 8 * bs.length) = w' - cnt.toNat := by omega
  obtain ⟨left, rfl⟩ := Nat.exists_eq_add_of_le hlt.le
  rw [hleft, hstream, hexec, getbitsLoop_succ, if_pos (by exact hlt)]
  refine ⟨_, _, ?_, rfl⟩
  rw [State.fetched_regs, Regs.withByte_cnt, Nat.add_sub_cancel_left]
  exact hres.gatherAll (r := s.regs.withByte (lastByte s.regs.buf bs) cnt) hw

end

/-- Settles O51: the fetch that meets end-of-file answers what is gathered, above zeros. -/
theorem shortReadAnswersOkWithZeros : Obligations.ShortReadAnswersOkWithZeros := by
  intro s w bs d d' ha hm hf he h8 hw hbs hd heof
  obtain ⟨loop, res, hres, hexec⟩ := execGetbits_fetches_again ⟨ha, hm, hf⟩ he h8 hw hbs hd
  refine ⟨res, ?_, hres.lt, hres.bits⟩
  change execGetbits w s = _
  rw [hexec, getbitsFetch_of_eof (by exact he) (by exact heof)]
  simp [State.after, State.fetched, Regs.withByte, Regs.noteEof]

/-- Settles O52: the fetch that fails ends the loop, and the result is dropped. -/
theorem failedFetchEndsGetbits : Obligations.FailedFetchEndsGetbits := by
  intro s w bs d d' ha hm hf he h8 hw hbs hd herr
  obtain ⟨loop, res, -, hexec⟩ := execGetbits_fetches_again ⟨ha, hm, hf⟩ he h8 hw hbs hd
  change execGetbits w s = _
  rw [hexec, getbitsFetch_of_err (by exact he) (by exact herr)]
  simp [State.after, State.fetched, Regs.withByte, Regs.fetchFailed]

end Sys2Proof.Machine
end

section
/-! SUPPORT. Reads in a row: what GETBIT and GETBITS take from the bit stream, stated alike for both, so that a GETBITS
and its GETBITs compare (R134), and reading a file of the reference device to its end (R135). -/

namespace Sys2Proof.Machine

open Sys2Proof

/-! ### What a read takes from the stream -/

theorem lastByte_append (b : Byte) (bs cs : Bytes) : lastByte b (bs ++ cs) = lastByte (lastByte b bs) cs := by
  induction bs generalizing b with
  | nil => rfl
  | cons c bs ih => exact ih c

theorem Device.delivers_append {bs cs : Bytes} {d d' : Device} :
    d.delivers (bs ++ cs) = some d' ↔ ∃ d₁, d.delivers bs = some d₁ ∧ d₁.delivers cs = some d' := by
  induction bs generalizing d with
  | nil => simp [Device.delivers]
  | cons b bs ih =>
    simp only [List.cons_append, Device.delivers_cons_eq_some, ih]
    exact ⟨fun ⟨d₁, hread, d₂, hbs, hcs⟩ => ⟨d₂, ⟨d₁, hread, hbs⟩, hcs⟩,
      fun ⟨d₂, ⟨d₁, hread, hbs⟩, hcs⟩ => ⟨d₁, hread, d₂, hbs, hcs⟩⟩

theorem Regs.unconsumedBits_length (r : Regs) : r.unconsumedBits.length = r.cnt.toNat := bitsOf_length ..

/-- From `s` to `t` the bytes `bs` were fetched and the bits `l` taken from the front of the stream (R53). -/
structure Took (s : State) (bs : Bytes) (l : List Bool) (t : State) : Prop where
  device : s.device.delivers bs = some t.device
  traffic : t.traffic = s.traffic ++ bs.map fun b => .portRead (.byte b)
  regs : t.regs = s.regs.withByte (lastByte s.regs.buf bs) t.regs.cnt
  count : t.regs.cnt.toNat ≤ 8
  stream : s.regs.unconsumedBits ++ streamBits bs = l ++ t.regs.unconsumedBits

theorem Took.refl {s : State} (h8 : s.regs.cnt.toNat ≤ 8) : Took s [] [] s :=
  ⟨rfl, (List.append_nil _).symm, rfl, h8, List.append_nil _⟩

theorem Took.trans {s t u : State} {bs cs : Bytes} {l m : List Bool} (h : Took s bs l t) (k : Took t cs m u) :
    Took s (bs ++ cs) (l ++ m) u where
  device := Device.delivers_append.2 ⟨t.device, h.device, k.device⟩
  traffic := by rw [k.traffic, h.traffic, List.append_assoc, List.map_append]
  regs := by
    have hbuf : t.regs.buf = lastByte s.regs.buf bs := congrArg Regs.buf h.regs
    rw [k.regs, hbuf, ← lastByte_append, h.regs]
    rfl
  count := k.count
  stream := by
    rw [streamBits_append, ← List.append_assoc, h.stream, List.append_assoc, k.stream, List.append_assoc]

theorem Took.length {s t : State} {bs : Bytes} {l : List Bool} (h : Took s bs l t) :
    s.regs.cnt.toNat + 8 * bs.length = l.length + t.regs.cnt.toNat := by
  have hlen := congrArg List.length h.stream
  rwa [List.length_append, List.length_append, streamBits_length, Regs.unconsumedBits_length,
    Regs.unconsumedBits_length] at hlen

theorem Took.usable {s t : State} {bs : Bytes} {l : List Bool} (h : Took s bs l t) (hu : s.regs.Usable .read) :
    t.regs.Usable .read := by
  rw [h.regs]
  exact ⟨hu.active, hu.mode, hu.fault⟩

theorem Took.eofs {s t : State} {bs : Bytes} {l : List Bool} (h : Took s bs l t) : t.regs.eofs = s.regs.eofs := by
  rw [h.regs]
  rfl

/-- Two reads of as many bits from the same bytes take the same bits and leave the same stream. -/
theorem Took.unique {s t u : State} {bs : Bytes} {l m : List Bool} (h : Took s bs l t) (k : Took s bs m u)
    (hlen : l.length = m.length) : l = m ∧ SameStream t u := by
  have hcnt : t.regs.cnt = u.regs.cnt := BitVec.eq_of_toNat_eq (by have := h.length; have := k.length; omega)
  refine ⟨(List.append_inj (h.stream.symm.trans k.stream) hlen).1, ?_, ?_, k.traffic.trans h.traffic.symm⟩
  · rw [k.regs, h.regs, ← hcnt]
  · exact Option.some.inj (k.device.symm.trans h.device)

/-! ### GETBITS and GETBIT -/

/-- A bit as GETBIT answers it (R130). -/
theorem bit_getLsbD_zero (b : Bool) : (if b then 1 else 0 : Word64).getLsbD 0 = b := by cases b <;> rfl

section

variable {s : State} {d : Device} {bs : Bytes} (hu : s.regs.Usable .read) (he : s.regs.eofs = false)
  (h8 : s.regs.cnt.toNat ≤ 8) (hd : s.device.delivers bs = some d)
include hu he h8 hd

theorem execGetbits_took {w : Nat} (hw : w ≤ 64) (hbs : bs.length = fetchesNeeded w s.regs.cnt.toNat) :
    ∃ t v, execGetbits w s = .next t ∧ t.response = some ⟨.ok, v⟩ ∧ v.toNat < 2 ^ w ∧
      Took s bs (bitsOf w v.toNat) t := by
  obtain ⟨v, cnt, hexec, hlt, hcnt, hstream⟩ :=
    getbitsTakesTheFieldFromTheStream s w bs d hu.active hu.mode hu.fault he h8 hw hbs hd
  exact ⟨_, v, hexec, rfl, hlt, hd, rfl, rfl, hcnt, hstream⟩

theorem execGetbit_took (hbs : bs.length = fetchesNeeded 1 s.regs.cnt.toNat) :
    ∃ t v, execGetbit s = .next t ∧ t.okValue = some v ∧ Took s bs [v.getLsbD 0] t := by
  by_cases h0 : s.regs.cnt = 0
  · have hone : bs.length = 1 := by rw [hbs, h0]; rfl
    obtain ⟨b, rfl⟩ := List.length_eq_one_iff.1 hone
    obtain ⟨d₁, hread, hnil⟩ := Device.delivers_cons_eq_some.1 hd
    obtain rfl : d₁ = d := Option.some.inj hnil
    have hseven : (7 : BitVec 4).toNat ≤ 8 := by decide
    refine ⟨_, _, (execGetbit_of_empty hu h0).trans (getbitFetch_of_byte he hread), rfl, hd, rfl, rfl, hseven, ?_⟩
    rw [Regs.unconsumedBits, h0, bit_getLsbD_zero]
    exact List.append_nil _
  · obtain ⟨c, hc⟩ : ∃ c, s.regs.cnt.toNat = c + 1 := ⟨s.regs.cnt.toNat - 1, by bv_omega⟩
    have hnone : bs = [] := List.length_eq_zero_iff.1 (by rw [hbs, hc, fetchesNeeded]; omega)
    subst hnone
    obtain rfl : s.device = d := Option.some.inj hd
    have hc' : (s.regs.cnt - 1).toNat = c := by bv_omega
    refine ⟨_, _, execGetbit_of_buffered hu (by omega), rfl, rfl, rfl, rfl, ?_, ?_⟩
    · change (s.regs.cnt - 1).toNat ≤ 8
      omega
    · change bitsOf s.regs.cnt.toNat s.regs.buf.toNat ++ [] = _ ++ bitsOf (s.regs.cnt - 1).toNat s.regs.buf.toNat
      rw [bit_getLsbD_zero, hc, hc', List.append_nil]
      rfl

end

/-! ### GETBIT after GETBIT -/

theorem Took.of_relatch {c : Command} {s t : State} {bs : Bytes} {l : List Bool} (h : Took (s.relatch c) bs l t) :
    Took s bs l t :=
  ⟨h.device, h.traffic, h.regs, h.count, h.stream⟩

theorem getbitSequence_succ_of_next {n : Nat} {s t u : State} {v : Word64} {l : List Bool}
    (hrun : runWith .getbit 0 s = .next t) (hv : t.okValue = some v) (hseq : getbitSequence n t = some (l, u)) :
    getbitSequence (n + 1) s = some (v.getLsbD 0 :: l, u) := by
  rw [getbitSequence, hrun]
  simp only [hv, hseq, Option.map_some]

/-- GETBITs take as many bits of the stream when the device delivers the bytes for them. -/
theorem getbitSequence_took {n : Nat} {s : State} {d : Device} {bs : Bytes} (hu : s.regs.Usable .read)
    (he : s.regs.eofs = false) (h8 : s.regs.cnt.toNat ≤ 8) (hd : s.device.delivers bs = some d)
    (hbs : bs.length = fetchesNeeded n s.regs.cnt.toNat) :
    ∃ l u, getbitSequence n s = some (l, u) ∧ l.length = n ∧ Took s bs l u := by
  induction n generalizing s bs with
  | zero =>
    obtain rfl : bs = [] := List.length_eq_zero_iff.1 (by rw [hbs, fetchesNeeded]; omega)
    exact ⟨[], s, rfl, rfl, Took.refl h8⟩
  | succ n ih =>
    obtain ⟨cs, ds, rfl, hcs⟩ : ∃ cs ds, bs = cs ++ ds ∧ cs.length = fetchesNeeded 1 s.regs.cnt.toNat :=
      ⟨bs.take _, bs.drop _, (List.take_append_drop _ _).symm,
        List.length_take_of_le (by rw [hbs, fetchesNeeded, fetchesNeeded]; omega)⟩
    obtain ⟨d₁, hd₁, hd₂⟩ := Device.delivers_append.1 hd
    obtain ⟨t, v, hexec, hv, htook⟩ := execGetbit_took (s := s.relatch (plainCommand .getbit 0)) hu he h8 hd₁ hcs
    have hfirst : Took s cs [v.getLsbD 0] t := htook.of_relatch
    obtain rfl : t.device = d₁ := Option.some.inj (hfirst.device.symm.trans hd₁)
    have hds : ds.length = fetchesNeeded n t.regs.cnt.toNat := by
      have hlen := hfirst.length
      simp only [fetchesNeeded, List.length_append, List.length_singleton] at hbs hcs hlen ⊢
      omega
    obtain ⟨l, u, hseq, hl, hrest⟩ :=
      ih (hfirst.usable hu) (hfirst.eofs.trans he) hfirst.count hd₂ hds
    exact ⟨_, u, getbitSequence_succ_of_next hexec hv hseq, congrArg (· + 1) hl, hfirst.trans hrest⟩

/-- Settles O53: both take `W` bits of the same stream. -/
theorem getbitsEqualsItsGetbits : Obligations.GetbitsEqualsItsGetbits := by
  intro s w bs d ha hm hf he h8 hw hbs hd
  obtain ⟨t, v, hexec, hv, -, htook⟩ := execGetbits_took ⟨ha, hm, hf⟩ he h8 hd hw hbs
  obtain ⟨l, u, hseq, hl, htook'⟩ := getbitSequence_took ⟨ha, hm, hf⟩ he h8 hd hbs
  obtain ⟨rfl, hsame⟩ := htook'.unique htook (by rw [hl, bitsOf_length])
  exact ⟨t, u, v, hexec, by rw [State.okValue, hv], hseq, hsame.regs, hsame.traffic, hsame.device⟩

/-! ### The reference device (R50) -/

theorem RefDevice.read_of_byte {f : RefDevice} {F : Bytes} {b : Byte} (hF : f.content = some F)
    (hb : F[f.pos]? = some b) : (Device.reference f).read = some (.byte b, .reference { f with pos := f.pos + 1 }) := by
  simp [Device.read, RefDevice.read, hF, hb]

theorem RefDevice.read_at_end {f : RefDevice} {F : Bytes} (hF : f.content = some F) (hpos : F.length ≤ f.pos) :
    (Device.reference f).read = some (.eof, .reference f) := by
  simp [Device.read, RefDevice.read, hF, List.getElem?_eq_none hpos]

/-- The reference device delivers the bytes of the file from its position on. -/
theorem RefDevice.delivers_of_prefix {f : RefDevice} {F bs : Bytes} (hF : f.content = some F)
    (hbs : bs <+: F.drop f.pos) :
    (Device.reference f).delivers bs = some (.reference { f with pos := f.pos + bs.length }) := by
  induction bs generalizing f with
  | nil => rfl
  | cons b bs ih =>
    obtain ⟨more, hmore⟩ := hbs
    have hb : F[f.pos]? = some b := by
      rw [← List.head?_drop, ← hmore]
      rfl
    have hrest : bs <+: F.drop (f.pos + 1) := by
      rw [← List.tail_drop, ← hmore]
      exact List.prefix_append _ _
    refine Device.delivers_cons_eq_some.2 ⟨_, RefDevice.read_of_byte hF hb, ?_⟩
    rw [ih (f := { f with pos := f.pos + 1 }) hF hrest, List.length_cons, Nat.add_assoc, Nat.add_comm 1]

/-- Settles O59: the GETBITs take all bits of the file, none is left buffered, and the next fetch meets its end. -/
theorem endOfStreamAfterTheLastBit : Obligations.EndOfStreamAfterTheLastBit := by
  intro s f name content hdev hname hfile hpos ha hm hf he h0
  have hF : f.content = some content := by rw [RefDevice.content, hname, ← hfile]
  have hd : s.device.delivers content = some (.reference { f with pos := f.pos + content.length }) :=
    hdev ▸ RefDevice.delivers_of_prefix hF (by rw [hpos]; exact List.prefix_refl _)
  obtain ⟨l, t, hseq, hl, htook⟩ := getbitSequence_took (n := 8 * content.length) ⟨ha, hm, hf⟩ he (by simp [h0]) hd
    (by rw [h0]; change _ = (8 * content.length + 7) / 8; omega)
  have hcnt : t.regs.cnt = 0 := by
    have hlen := htook.length
    rw [hl, h0] at hlen
    bv_omega
  have hbits : l = streamBits content := by
    simpa [Regs.unconsumedBits, hcnt, h0, bitsOf] using htook.stream.symm
  have hend : t.device.read = some (.eof, .reference { f with pos := f.pos + content.length }) :=
    Option.some.inj (htook.device.symm.trans hd) ▸
      RefDevice.read_at_end (f := { f with pos := f.pos + content.length }) hF (Nat.le_add_left _ _)
  refine ⟨t, _, hbits ▸ hseq, (execGetbit_of_empty (htook.usable ⟨ha, hm, hf⟩) hcnt).trans
    (getbitFetch_of_eof (htook.eofs.trans he) hend), rfl, rfl, hcnt⟩

end Sys2Proof.Machine
end

section
/-! SUPPORT. Streams on a file of the reference device (R50): what is written to it and read from it is one stream of
bits. -/

namespace Sys2Proof.Machine

open Sys2Proof

/-! ### The file named `path` -/

theorem lookupFile_storeFile (name content : Bytes) (files : List (Bytes × Bytes)) :
    lookupFile name (storeFile name content files) = some content := by
  induction files with
  | nil => simp [storeFile, lookupFile]
  | cons p files ih =>
    obtain ⟨n, F⟩ := p
    by_cases h : n = name
    · simp [storeFile, lookupFile, h]
    · simp [storeFile, lookupFile, h, ih]

theorem writeAt_length (F : Bytes) (b : Byte) : writeAt F F.length b = F ++ [b] := by
  simp [writeAt]

/-- The reference device with the content `F` in the named file, the file `cur` open, at position `p`. -/
def Device.Holds (path F : Bytes) (cur : Option Bytes) (p : Nat) (d : Device) : Prop :=
  ∃ files, d = .reference ⟨files, cur, p⟩ ∧ lookupFile path files = some F

section

variable {path F : Bytes} {cur : Option Bytes} {p : Nat} {d : Device}

theorem Device.Holds.write (h : d.Holds path F (some path) F.length) (b : Byte) :
    ∃ d', d.write b = some (.ok, d') ∧ d'.Holds path (F ++ [b]) (some path) (F ++ [b]).length := by
  obtain ⟨files, rfl, hF⟩ := h
  refine ⟨.reference ⟨storeFile path (F ++ [b]) files, some path, F.length + 1⟩, ?_,
    storeFile path (F ++ [b]) files, ?_, lookupFile_storeFile ..⟩
  · simp [Device.write, RefDevice.write, hF, writeAt_length]
  · rw [List.length_append, List.length_singleton]

theorem Device.Holds.acceptsWrites (h : d.Holds path F (some path) F.length) (n : Nat) : d.acceptsWrites n := by
  induction n generalizing d F with
  | zero => trivial
  | succ n ih =>
    intro b
    obtain ⟨d', hwrite, h'⟩ := h.write b
    exact ⟨d', hwrite, ih h'⟩

theorem Device.Holds.takes {bs : Bytes} {d' : Device} (h : d.Holds path F (some path) F.length)
    (htakes : d.takes bs = some d') : d'.Holds path (F ++ bs) (some path) (F ++ bs).length := by
  induction bs generalizing d F with
  | nil =>
    obtain rfl : d = d' := Option.some.inj htakes
    rwa [List.append_nil]
  | cons b bs ih =>
    obtain ⟨d₁, hwrite, hrest⟩ := Device.takes_cons_eq_some.1 htakes
    obtain ⟨d₂, hwrite', h₂⟩ := h.write b
    obtain rfl : d₂ = d₁ := by simpa using hwrite'.symm.trans hwrite
    simpa using ih h₂ hrest

theorem Device.Holds.close (h : d.Holds path F cur p) :
    ∃ d', d.close = some (.ok, d') ∧ d'.Holds path F none p := by
  obtain ⟨files, rfl, hF⟩ := h
  exact ⟨_, rfl, files, rfl, hF⟩

theorem Device.Holds.openRead (h : d.Holds path F cur p) :
    ∃ d', d.openFile path .read = some (.ok, d') ∧ d'.Holds path F (some path) 0 := by
  obtain ⟨files, rfl, hF⟩ := h
  exact ⟨.reference ⟨files, some path, 0⟩, by simp [Device.openFile, RefDevice.openFile, hF], files, rfl, hF⟩

theorem RefDevice.openWrite (f : RefDevice) (path : Bytes) :
    ∃ d', (Device.reference f).openFile path .write = some (.ok, d') ∧ d'.Holds path [] (some path) 0 :=
  ⟨_, rfl, _, rfl, lookupFile_storeFile ..⟩

theorem Device.Holds.delivers {bs : Bytes} (h : d.Holds path F (some path) p) (hbs : bs <+: F.drop p) :
    ∃ d', d.delivers bs = some d' ∧ d'.Holds path F (some path) (p + bs.length) := by
  obtain ⟨files, rfl, hF⟩ := h
  exact ⟨_, RefDevice.delivers_of_prefix (f := ⟨files, some path, p⟩) hF hbs, files, rfl, hF⟩

end

/-! ### A stream being written -/

/-- A Write stream on the named file, into which the bits `l` have been put since the file was emptied. -/
structure WritesFile (path : Bytes) (l : List Bool) (r : Regs) (d : Device) : Prop where
  usable : r.Usable .write
  fillable : r.Fillable
  owns : r.owns = true
  file : ∃ F, d.Holds path F (some path) F.length ∧ l = streamBits F ++ r.pendingBits

theorem execPutbits_writesFile {path : Bytes} {l : List Bool} {s : State} {w : Nat}
    (h : WritesFile path l s.regs s.device) (hw : w ≤ 64) :
    ∃ r d new, execPutbits w s = .next (s.after r d new .ok 0) ∧
      WritesFile path (l ++ bitsOf w s.operandA.toNat) r d := by
  obtain ⟨⟨ha, hm, hf⟩, ⟨h1, h8, hz⟩, howns, F, hF, rfl⟩ := h
  obtain ⟨bs, d, buf, cnt, hexec, htakes, -, hstream, hcnt1, hcnt8, hbuf⟩ :=
    putbitsAppendsTheFieldToTheStream s w ha hm hf h1 h8 hz hw (hF.acceptsWrites _)
  refine ⟨_, d, _, hexec, ⟨ha, hm, hf⟩, ⟨hcnt1, hcnt8, hbuf⟩, howns, F ++ bs, hF.takes htakes, ?_⟩
  rw [streamBits_append, List.append_assoc, List.append_assoc, hstream]

/-- The byte in `BUF` on a Write stream: the pending bits, then the unfilled places. -/
theorem Regs.bitsOf_buf {r : Regs} (h8 : r.cnt.toNat ≤ 8) :
    bitsOf 8 r.buf.toNat = r.pendingBits ++ bitsOf r.cnt.toNat r.buf.toNat := by
  have hsplit := bitsOf_add (8 - r.cnt.toNat) r.cnt.toNat r.buf.toNat
  rwa [Nat.sub_add_cancel h8] at hsplit

/-- CLOSE of a Write stream pads the last byte with zeros, so the file begins with the bits put. -/
theorem execClose_writesFile {path : Bytes} {l : List Bool} {s : State} {m : Allocator}
    (h : WritesFile path l s.regs s.device) (hfree : s.allocator.free = some m) :
    ∃ d new F p, execClose s = .next { s.after Regs.reset d new .ok 0 with file := none, allocator := m } ∧
      d.Holds path F none p ∧ l <+: streamBits F := by
  obtain ⟨⟨ha, hm, hf⟩, ⟨h1, h8, hz⟩, howns, F, hF, rfl⟩ := h
  by_cases hfull : s.regs.cnt = 8
  · obtain ⟨d, hport, hd⟩ := hF.close
    refine ⟨d, _, F, _, closeFlushesReleasesAndResets s _ d m .ok .ok false ha (by simp [hfull]) rfl hport
      (by simp [howns, hfree]), hd, ?_⟩
    have hnone : s.regs.pendingBits = [] := by rw [Regs.pendingBits, hfull]; rfl
    rw [hnone, List.append_nil]
  · obtain ⟨d₁, hwrite, hd₁⟩ := hF.write s.regs.buf
    obtain ⟨d, hport, hd⟩ := hd₁.close
    refine ⟨d, _, _, _, closeFlushesReleasesAndResets s d₁ d m .ok .ok true ha
      ⟨fun _ => ⟨hm, hf, hfull⟩, fun _ => rfl⟩ hwrite hport (by simp [howns, hfree]), hd, ?_⟩
    rw [streamBits_append, List.prefix_append_right_inj, streamBits_cons, Regs.bitsOf_buf h8, List.append_assoc]
    exact List.prefix_append _ _

/-! ### A stream being read -/

/-- A Read stream on the named file, from which the bits `l` are still to come. -/
structure ReadsFile (path : Bytes) (l : List Bool) (r : Regs) (d : Device) : Prop where
  usable : r.Usable .read
  eofs : r.eofs = false
  count : r.cnt.toNat ≤ 8
  owns : r.owns = true
  file : ∃ F p, d.Holds path F (some path) p ∧ l = r.unconsumedBits ++ streamBits (F.drop p)

/-- A GETBITS whose bits the stream still has answers them. -/
theorem execGetbits_readsFile {path : Bytes} {l : List Bool} {s : State} {w x : Nat} (hw : w ≤ 64)
    (h : ReadsFile path (bitsOf w x ++ l) s.regs s.device) :
    ∃ r d new, execGetbits w s = .next (s.after r d new .ok (BitVec.ofNat 64 (x % 2 ^ w))) ∧ ReadsFile path l r d := by
  obtain ⟨⟨ha, hm, hf⟩, he, h8, howns, F, p, hF, hstream⟩ := h
  have hcount : ((F.drop p).take (fetchesNeeded w s.regs.cnt.toNat)).length = fetchesNeeded w s.regs.cnt.toNat := by
    have hlen := congrArg List.length hstream
    simp only [List.length_append, bitsOf_length, Regs.unconsumedBits_length, streamBits_length] at hlen
    rw [List.length_take_of_le (by rw [fetchesNeeded]; omega)]
  obtain ⟨d, hdelivers, hd⟩ := hF.delivers (List.take_prefix (fetchesNeeded w s.regs.cnt.toNat) (F.drop p))
  obtain ⟨v, cnt, hexec, hlt, hcnt, htaken⟩ :=
    getbitsTakesTheFieldFromTheStream s w _ d ha hm hf he h8 hw hcount hdelivers
  rw [← List.take_append_drop (fetchesNeeded w s.regs.cnt.toNat) (F.drop p), streamBits_append, ← List.append_assoc,
    htaken, List.append_assoc, List.drop_drop] at hstream
  obtain ⟨hfield, hrest⟩ := List.append_inj hstream (by simp)
  have hv : v = BitVec.ofNat 64 (x % 2 ^ w) := by
    have hvalue : v.toNat = x % 2 ^ w :=
      eq_of_bitsOf_eq hlt (Nat.mod_lt _ (Nat.two_pow_pos w)) (by rw [bitsOf_mod, hfield])
    rw [← hvalue, BitVec.ofNat_toNat, BitVec.setWidth_eq]
  subst hv
  exact ⟨_, d, _, hexec, ⟨ha, hm, hf⟩, he, hcnt, howns, F, _, hd, hcount.symm ▸ hrest⟩

/-- CLOSE of a Read stream. -/
theorem execClose_readsFile {path : Bytes} {l : List Bool} {s : State} {m : Allocator}
    (h : ReadsFile path l s.regs s.device) (hfree : s.allocator.free = some m) :
    ∃ d new, execClose s = .next { s.after Regs.reset d new .ok 0 with file := none, allocator := m } := by
  obtain ⟨⟨ha, hm, hf⟩, -, -, howns, F, p, hF, -⟩ := h
  obtain ⟨d, hport, -⟩ := hF.close
  exact ⟨d, _, closeFlushesReleasesAndResets s _ d m .ok .ok false ha (by simp [hm]) rfl hport
    (by simp [howns, hfree])⟩

end Sys2Proof.Machine
end

section
/-! SUPPORT. Commands one after another as steps of the whole machine (R34, R70), and the round trip of written fields
(R138). -/

namespace Sys2Proof.Machine

open Sys2Proof

/-! ### Commands in a row -/

/-- The engine is idle and at work, and the host offers the commands and takes each response. -/
structure State.Offers (cs : List Command) (s : State) : Prop where
  fsm : s.fsm = .idle
  resetLine : s.resetLine = false
  hostReady : s.hostReady = true
  offered : s.offered = cs

/-- Offered the commands of the exchanges, the engine completes exactly these in two steps each, whatever is offered
after them, and then `Q` holds. -/
def Completes (xs : List Exchange) (Q : State → Prop) (s : State) : Prop :=
  ∀ rest, s.Offers (xs.map Exchange.command ++ rest) →
    ∃ t, Host.Core.run core (2 * xs.length) s = .next t ∧ t.exchanges = s.exchanges ++ xs ∧ t.cfg = s.cfg ∧
      t.Offers rest ∧ Q t

theorem run_succ_of_next {n : Nat} {s t : State} (h : step s = .next t) :
    Host.Core.run core (n + 1) s = Host.Core.run core n t := by
  have hcore : core.step s = .next t := h
  simp only [Host.Core.run, hcore]

theorem run_succ_eq_next {n : Nat} {s t : State} (h : Host.Core.run core (n + 1) s = .next t) :
    ∃ u, step s = .next u ∧ Host.Core.run core n u = .next t := by
  simp only [Host.Core.run] at h
  rcases hstep : core.step s with u | f | r <;> rw [hstep] at h
  · exact ⟨u, hstep, h⟩
  · cases h
  · cases h

theorem run_add_of_next {m n : Nat} {s t : State} (h : Host.Core.run core m s = .next t) :
    Host.Core.run core (m + n) s = Host.Core.run core n t := by
  induction m generalizing s with
  | zero =>
    cases h
    rw [Nat.zero_add]
  | succ m ih =>
    obtain ⟨u, hstep, hrest⟩ := run_succ_eq_next h
    rw [Nat.succ_add, run_succ_of_next hstep, ih hrest]

theorem Completes.nil {Q : State → Prop} {s : State} (h : Q s) : Completes [] Q s :=
  fun _ ho => ⟨s, rfl, (List.append_nil _).symm, rfl, ho, h⟩

theorem Completes.append {xs ys : List Exchange} {P Q : State → Prop} {s : State} (h : Completes xs P s)
    (k : ∀ t, t.cfg = s.cfg → P t → Completes ys Q t) : Completes (xs ++ ys) Q s := by
  intro rest ho
  rw [List.map_append, List.append_assoc] at ho
  obtain ⟨t, hrun, hx, hc, hot, ht⟩ := h _ ho
  obtain ⟨u, hrun', hx', hc', hou, hu⟩ := k t hc ht _ hot
  refine ⟨u, ?_, by rw [hx', hx, List.append_assoc], hc'.trans hc, hou, hu⟩
  rw [List.length_append, Nat.mul_add, run_add_of_next hrun, hrun']

/-- One command for each element of a list, in turn. -/
theorem Completes.map {α : Type} {x : α → Exchange} {P : List α → State → Prop} {as : List α} {s : State}
    (hstep : ∀ a ∈ as, ∀ bs t, P (a :: bs) t → Completes [x a] (P bs) t) (h : P as s) :
    Completes (as.map x) (P []) s := by
  induction as generalizing s with
  | nil => exact .nil h
  | cons a as ih =>
    exact (hstep a List.mem_cons_self as s h).append fun t _ ht =>
      ih (fun b hb => hstep b (List.mem_cons_of_mem a hb)) ht

/-- One command: a step runs it to its response, and the next step takes the response. -/
theorem Completes.of_exec {c : Command} {i : Instr} {r : Response} {Q : State → Prop} {s : State}
    (hdecode : decode c.word = .legal i)
    (hexec : ∀ rest, ∃ u, exec i (s.accept c rest) = .next u ∧ u.fsm = .resp ∧ u.response = some r ∧ Q u.takeResponse) :
    Completes [⟨c, r⟩] Q s := by
  intro rest ho
  obtain ⟨u, hu, hfsm, hresp, hQ⟩ := hexec rest
  have hk := exec_hostSideKept hu
  have hfirst : step s = .next u :=
    (stepRunsTheDecodedCommand s c rest i ho.resetLine ho.fsm ho.offered hdecode).trans hu
  have hready : u.hostReady = true := hk.hostReady.trans ho.hostReady
  have hsecond : step u = .next u.takeResponse := by
    rw [step_of_noReset (hk.resetLine.trans ho.resetLine), fsmStep_of_resp hfsm, if_pos hready]
  refine ⟨u.takeResponse, ?_, ?_, hk.cfg, ⟨rfl, hk.resetLine.trans ho.resetLine, hready, hk.offered⟩, hQ⟩
  · exact (run_succ_of_next hfirst).trans (run_succ_of_next hsecond)
  · rw [State.takeResponse_exchanges, hk.exchanges, State.exchange_eq hk.latched hresp]
    rfl

/-! ### The commands of the round trip -/

/-- OPEN of the file, the workspace given at `a`. -/
def openExchange (path mode : Bytes) (a : Word64) : Exchange := ⟨openCommand path mode, .ok, placementHandle a⟩

/-- PUTBITS of a field. -/
def putExchange (p : Nat × Word64) : Exchange := ⟨plainCommand (.putbits p.1) p.2, .ok, 0⟩

/-- GETBITS of the width of a field, answered with the field. -/
def getExchange (p : Nat × Word64) : Exchange :=
  ⟨plainCommand (.getbits p.1) 0, .ok, BitVec.ofNat 64 (p.2.toNat % 2 ^ p.1)⟩

/-- CLOSE. -/
def closeExchange : Exchange := ⟨plainCommand .close 0, .ok, 0⟩

/-- The bits of fields, in order. -/
def fieldBits (fields : List (Nat × Word64)) : List Bool := fields.flatMap fun p => bitsOf p.1 p.2.toNat

theorem fieldBits_cons (p : Nat × Word64) (fields : List (Nat × Word64)) :
    fieldBits (p :: fields) = bitsOf p.1 p.2.toNat ++ fieldBits fields := rfl

/-- A width of at most 64 bits has a command word. -/
theorem widthEncodable_of_le {w : Nat} (hw : w ≤ 64) : widthEncodable w = true := decide_eq_true (by omega)

theorem openExchange_completes {s : State} {path : Bytes} {ch : Byte} {dir : Mode} {a : Word64} {as : List AllocAnswer}
    {n : Nat} {d : Device} (hr : s.regs = Regs.reset) (hch : ch = 0x72 ∧ dir = .read ∨ ch = 0x77 ∧ dir = .write)
    (hm : s.allocator = { allocs := .addr a :: as, frees := n }) (hfits : a.toNat + s.cfg.workspaceSize ≤ 2 ^ 64)
    (hd : s.device.openFile path dir = some (.ok, d)) :
    Completes [openExchange path [ch] a]
      (fun t => t.regs = Regs.opened dir true a ∧ t.device = d ∧ t.allocator = { allocs := as, frees := n }) s := by
  have halloc : s.allocator.alloc s.cfg.workspaceSize = some (.addr a, { allocs := as, frees := n }) := by
    rw [hm]
    exact allocator_alloc_eq_some.2 ⟨decide_eq_true hfits, rfl, rfl⟩
  have hclosed : s.regs.active = false := by rw [hr]; rfl
  refine Completes.of_exec (decodeOfEncodeIsTheInstruction (.openFile false) rfl) fun rest => ?_
  have hopen := openWithAllocatedWorkspaceSucceeds (s.accept (openCommand path [ch]) rest) path [] ch dir a _ d hclosed
    rfl rfl hch halloc hd
  exact ⟨_, hopen, rfl, rfl, (Regs.opened_eq dir true a).symm, rfl, rfl⟩

/-- The fields `ps` are still to be put to make up the bits `l` of the file. -/
def ToPut (path : Bytes) (m : Allocator) (l : List Bool) (ps : List (Nat × Word64)) (s : State) : Prop :=
  s.allocator = m ∧ ∃ k, l = k ++ fieldBits ps ∧ WritesFile path k s.regs s.device

/-- The fields `ps` are still to come from the file, and the bits `l` after them. -/
def ToGet (path : Bytes) (m : Allocator) (l : List Bool) (ps : List (Nat × Word64)) (s : State) : Prop :=
  s.allocator = m ∧ ReadsFile path (fieldBits ps ++ l) s.regs s.device

section

variable {s : State} {path : Bytes} {m : Allocator} {l : List Bool} {ps : List (Nat × Word64)}

theorem putExchange_completes {p : Nat × Word64} (hw : p.1 ≤ 64) (h : ToPut path m l (p :: ps) s) :
    Completes [putExchange p] (ToPut path m l ps) s := by
  obtain ⟨hm, k, hl, hk⟩ := h
  refine Completes.of_exec (decodeOfEncodeIsTheInstruction (.putbits p.1) (widthEncodable_of_le hw)) fun rest => ?_
  obtain ⟨r, d, new, hexec, hk'⟩ := execPutbits_writesFile (s := s.accept (plainCommand (.putbits p.1) p.2) rest) hk hw
  exact ⟨_, hexec, rfl, rfl, hm, _, by rw [hl, fieldBits_cons, ← List.append_assoc]; rfl, hk'⟩

theorem getExchange_completes {p : Nat × Word64} (hw : p.1 ≤ 64) (h : ToGet path m l (p :: ps) s) :
    Completes [getExchange p] (ToGet path m l ps) s := by
  obtain ⟨hm, hl⟩ := h
  rw [fieldBits_cons, List.append_assoc] at hl
  refine Completes.of_exec (decodeOfEncodeIsTheInstruction (.getbits p.1) (widthEncodable_of_le hw)) fun rest => ?_
  obtain ⟨r, d, new, hexec, hl'⟩ := execGetbits_readsFile (s := s.accept (plainCommand (.getbits p.1) 0) rest) hw hl
  exact ⟨_, hexec, rfl, rfl, hm, hl'⟩

theorem closeExchange_completes_write {m' : Allocator} (h : ToPut path m l [] s) (hfree : m.free = some m') :
    Completes [closeExchange] (fun t => t.regs = Regs.reset ∧ t.allocator = m' ∧
      ∃ F p, t.device.Holds path F none p ∧ l <+: streamBits F) s := by
  obtain ⟨rfl, k, hl, hk⟩ := h
  obtain rfl : l = k := hl.trans (List.append_nil k)
  refine Completes.of_exec (decodeOfEncodeIsTheInstruction .close rfl) fun rest => ?_
  obtain ⟨d, new, F, p, hexec, hF⟩ := execClose_writesFile (s := s.accept (plainCommand .close 0) rest) hk hfree
  exact ⟨_, hexec, rfl, rfl, rfl, rfl, F, p, hF⟩

theorem closeExchange_completes_read {m' : Allocator} (h : ToGet path m l [] s) (hfree : m.free = some m') :
    Completes [closeExchange] (fun _ => True) s := by
  obtain ⟨rfl, hl⟩ := h
  refine Completes.of_exec (decodeOfEncodeIsTheInstruction .close rfl) fun rest => ?_
  obtain ⟨d, new, hexec⟩ := execClose_readsFile (s := s.accept (plainCommand .close 0) rest) hl hfree
  exact ⟨_, hexec, rfl, rfl, trivial⟩

end

/-! ### The two halves of the round trip

Each starts from a CLOSED engine with an answer to `Alloc` and one to `Free` at hand. -/

section

variable {s : State} {path : Bytes} {fields : List (Nat × Word64)} {a : Word64} {as : List AllocAnswer} {n : Nat}
  (hr : s.regs = Regs.reset) (hm : s.allocator = { allocs := .addr a :: as, frees := n + 1 })
  (hfits : a.toNat + s.cfg.workspaceSize ≤ 2 ^ 64) (hw : ∀ p ∈ fields, p.1 ≤ 64)
include hr hm hfits hw

/-- The file written begins with the bits of the fields. -/
theorem writing_completes {f : RefDevice} (hd : s.device = .reference f) :
    Completes (openExchange path [0x77] a :: fields.map putExchange ++ [closeExchange])
      (fun t => t.regs = Regs.reset ∧ t.allocator = { allocs := as, frees := n } ∧
        ∃ F p, t.device.Holds path F none p ∧ fieldBits fields <+: streamBits F) s := by
  obtain ⟨d, hopen, hempty⟩ := f.openWrite path
  have hput : Completes ([openExchange path [0x77] a] ++ fields.map putExchange)
      (ToPut path { allocs := as, frees := n + 1 } (fieldBits fields) []) s := by
    refine (openExchange_completes hr (.inr ⟨rfl, rfl⟩) hm hfits (hd ▸ hopen)).append fun t _ ht => ?_
    obtain ⟨hregs, rfl, hm'⟩ := ht
    refine Completes.map (fun p hp ps t ht => putExchange_completes (hw p hp) ht) ⟨hm', [], rfl, ?_⟩
    rw [hregs]
    exact ⟨⟨rfl, rfl, rfl⟩, ⟨by simp [freshCount], by simp [freshCount], rfl⟩, rfl, [], hempty, rfl⟩
  exact hput.append fun t _ ht => closeExchange_completes_write ht rfl

/-- A file that begins with the bits of the fields gives them back. -/
theorem reading_completes {F : Bytes} {p : Nat} (hd : s.device.Holds path F none p)
    (hF : fieldBits fields <+: streamBits F) :
    Completes (openExchange path [0x72] a :: fields.map getExchange ++ [closeExchange]) (fun _ => True) s := by
  obtain ⟨l, hl⟩ := hF
  obtain ⟨d, hopen, hstart⟩ := hd.openRead
  have hget : Completes ([openExchange path [0x72] a] ++ fields.map getExchange)
      (ToGet path { allocs := as, frees := n + 1 } l []) s := by
    refine (openExchange_completes hr (.inl ⟨rfl, rfl⟩) hm hfits hopen).append fun t _ ht => ?_
    obtain ⟨hregs, rfl, hm'⟩ := ht
    refine Completes.map (fun p hp ps t ht => getExchange_completes (hw p hp) ht) ⟨hm', ?_⟩
    rw [hregs]
    exact ⟨⟨rfl, rfl, rfl⟩, rfl, by simp [freshCount], rfl, F, 0, hstart, hl⟩
  exact hget.append fun t _ ht => closeExchange_completes_read ht rfl

end

/-- Settles O60: the file the first half leaves is the one the second half reads. -/
theorem roundTripGivesTheFieldsBack : Obligations.RoundTripGivesTheFieldsBack := by
  intro s path files fields a₁ a₂ hr hf _ _ hx hl hready hd hm hfits₁ hfits₂ ho hw
  have htrip : Completes
      ((openExchange path [0x77] a₁ :: fields.map putExchange ++ [closeExchange]) ++
        (openExchange path [0x72] a₂ :: fields.map getExchange ++ [closeExchange])) (fun _ => True) s := by
    refine (writing_completes hr hm hfits₁ hw hd).append fun t hcfg ht => ?_
    obtain ⟨hr', hm', F, p, hF, hbits⟩ := ht
    exact reading_completes hr' hm' (hcfg ▸ hfits₂) hw hF hbits
  have hcommands : roundTripProgram path fields =
      ((openExchange path [0x77] a₁ :: fields.map putExchange ++ [closeExchange]) ++
        (openExchange path [0x72] a₂ :: fields.map getExchange ++ [closeExchange])).map Exchange.command := by
    simp [roundTripProgram, openExchange, putExchange, getExchange, closeExchange, Function.comp_def]
  obtain ⟨t, hrun, hexchanges, -⟩ := htrip [] ⟨hf, hl, hready, by rw [ho, hcommands, List.append_nil]⟩
  rw [hx, List.nil_append] at hexchanges
  refine ⟨t, ?_, ?_, ?_⟩
  · rw [hcommands, List.length_map, hrun]
  · rw [hexchanges, hcommands]
  · rw [hexchanges]
    simp [openExchange, putExchange, getExchange, closeExchange, Function.comp_def]

end Sys2Proof.Machine
end

section
/-! SUPPORT. SEEK and TELL to their ends (R150, R154), and the bits a SEEK discards (R151). -/

namespace Sys2Proof.Machine

open Sys2Proof

theorem freshCount_eq (m : Mode) : freshCount m = if m = .read then 0 else 8 := by cases m <;> rfl

/-- Settles O54: SEEK is its `PortSeek` from the discarded registers, and each answer ends it at once. -/
theorem seekDiscardsAndRepositions : Obligations.SeekDiscardsAndRepositions := by
  intro s wh r d ha hf hd
  have hport : (s.setRegs s.regs.discard).portSeek (operandOffset (s.setRegs s.regs.discard).operandA) wh =
      some (r, _) := portSeek_eq_some.2 ⟨d, hd, rfl⟩
  change execSeek wh s = _
  rw [execSeek_of_unfaulted ha hf, seekPort, hport, ← freshCount_eq]
  cases r <;> rfl

/-- Settles O56. -/
theorem tellAnswersTheDevicePosition : Obligations.TellAnswersTheDevicePosition := by
  intro s d ha hf
  change (∀ n, _ → execTell s = _) ∧ (_ → execTell s = _)
  rw [execTell_of_unfaulted ha hf]
  constructor
  · intro n hd
    rw [tellPort, portTell_eq_some.2 ⟨d, hd, rfl⟩]
    rfl
  · intro hd
    rw [tellPort, portTell_eq_some.2 ⟨d, hd, rfl⟩]
    rfl

/-- Settles O55: the SEEK leaves `CNT = 8`, so CLOSE has nothing to flush. -/
theorem seekThenCloseLosesThePartialByte : Obligations.SeekThenCloseLosesThePartialByte := by
  intro s wh r d d' r' m ha hm hf hseek hclose hfree
  have hfull := seekDiscardsAndRepositions s wh r d ha hf hseek
  rw [hm, if_neg (by decide)] at hfull
  have hnothing : false = true ↔ s.regs.mode = .write ∧ s.regs.fault = false ∧ (8 : BitVec 4) ≠ 8 := by simp
  refine ⟨_, _, hfull, closeFlushesReleasesAndResets _ d d' m r' r' false ha hnothing rfl hclose hfree, rfl, ?_⟩
  simp [State.after]

end Sys2Proof.Machine
end

section
/-! SUPPORT. The position of the reference device (R50) counts the bytes of a stream, and TELL answers it (R155). -/

namespace Sys2Proof.Machine

open Sys2Proof

/-! ### TELL on the reference device -/

theorem Device.holds_of_current {path F : Bytes} {d : Device} {f : RefDevice} (hd : d = .reference f)
    (hcur : f.current = some path) (hF : lookupFile path f.files = some F) : d.Holds path F (some path) f.pos :=
  ⟨f.files, by rw [hd, ← hcur], hF⟩

theorem Device.Holds.tell {path F : Bytes} {p : Nat} {d : Device} (h : d.Holds path F (some path) p)
    (hp : p < 2 ^ 64) : d.tell = some (.pos (BitVec.ofNat 64 p), d) := by
  obtain ⟨files, rfl, -⟩ := h
  simp only [Device.tell, RefDevice.tell, if_pos hp]

theorem execTell_of_holds {path F : Bytes} {p : Nat} {s : State} {m : Mode} (hu : s.regs.Usable m)
    (h : s.device.Holds path F (some path) p) (hp : p < 2 ^ 64) :
    ∃ u, exec .tell s = .next u ∧ u.response = some ⟨.ok, BitVec.ofNat 64 p⟩ :=
  ⟨_, (tellAnswersTheDevicePosition s _ hu.active hu.fault).1 _ (h.tell hp), rfl⟩

/-! ### Writes at any position of the file

The file may already hold bytes at and after the position, so the lemmas say nothing of its content. -/

theorem Device.Holds.write_at {path F : Bytes} {p : Nat} {d : Device} (h : d.Holds path F (some path) p) (b : Byte) :
    ∃ d', d.write b = some (.ok, d') ∧ d'.Holds path (writeAt F p b) (some path) (p + 1) := by
  obtain ⟨files, rfl, hF⟩ := h
  exact ⟨.reference ⟨storeFile path (writeAt F p b) files, some path, p + 1⟩,
    by simp [Device.write, RefDevice.write, hF], _, rfl, lookupFile_storeFile ..⟩

theorem Device.Holds.acceptsWrites_at {path F : Bytes} {p : Nat} {d : Device} (h : d.Holds path F (some path) p)
    (n : Nat) : d.acceptsWrites n := by
  induction n generalizing d F p with
  | zero => trivial
  | succ n ih =>
    intro b
    obtain ⟨d', hwrite, h'⟩ := h.write_at b
    exact ⟨d', hwrite, ih h'⟩

/-- Each byte taken moves the position by one. -/
theorem Device.Holds.takes_at {path F bs : Bytes} {p : Nat} {d d' : Device} (h : d.Holds path F (some path) p)
    (htakes : d.takes bs = some d') : ∃ F', d'.Holds path F' (some path) (p + bs.length) := by
  induction bs generalizing d F p with
  | nil =>
    obtain rfl : d = d' := Option.some.inj htakes
    exact ⟨F, h⟩
  | cons b bs ih =>
    obtain ⟨d₁, hwrite, hrest⟩ := Device.takes_cons_eq_some.1 htakes
    obtain ⟨d₂, hwrite', h₂⟩ := h.write_at b
    obtain rfl : d₂ = d₁ := by simpa using hwrite'.symm.trans hwrite
    rw [List.length_cons, Nat.add_comm bs.length, ← Nat.add_assoc]
    exact ih h₂ hrest

/-! ### The bits put -/

/-- A Write stream on the named file into which `k` bits have been put since position 0: the position counts the bytes
emitted, and the pending bits are the rest. -/
structure HasPut (path : Bytes) (k : Nat) (r : Regs) (d : Device) : Prop where
  usable : r.Usable .write
  fillable : r.Fillable
  file : ∃ F p, d.Holds path F (some path) p ∧ k = 8 * p + r.pendingBits.length

theorem execPutbits_hasPut {path : Bytes} {k w : Nat} {s : State} (h : HasPut path k s.regs s.device) (hw : w ≤ 64) :
    ∃ t, execPutbits w s = .next t ∧ HasPut path (k + w) t.regs t.device := by
  obtain ⟨⟨ha, hm, hf⟩, ⟨h1, h8, hz⟩, F, p, hF, hk⟩ := h
  obtain ⟨bs, d, buf, cnt, hexec, htakes, -, hstream, hcnt1, hcnt8, hbuf⟩ :=
    putbitsAppendsTheFieldToTheStream s w ha hm hf h1 h8 hz hw (hF.acceptsWrites_at _)
  obtain ⟨F', hF'⟩ := hF.takes_at htakes
  have hlen := congrArg List.length hstream
  rw [List.length_append, List.length_append, bitsOf_length, streamBits_length] at hlen
  refine ⟨_, hexec, ⟨ha, hm, hf⟩, ⟨hcnt1, hcnt8, hbuf⟩, F', _, hF', ?_⟩
  change k + w = 8 * (p + bs.length) + (Regs.pendingBits { s.regs with buf := buf, cnt := cnt }).length
  omega

theorem putbitsSequence_cons_of_next {w : Nat} {v : Word64} {rest : List (Nat × Word64)} {s t : State}
    (h : runWith (.putbits w) v s = .next t) : putbitsSequence ((w, v) :: rest) s = putbitsSequence rest t := by
  rw [putbitsSequence, h]

theorem putbitsSequence_hasPut {path : Bytes} {k : Nat} {fields : List (Nat × Word64)} {s : State}
    (h : HasPut path k s.regs s.device) (hw : ∀ p ∈ fields, p.1 ≤ 64) :
    ∃ t, putbitsSequence fields s = .next t ∧ HasPut path (k + (fields.map Prod.fst).sum) t.regs t.device := by
  induction fields generalizing k s with
  | nil => exact ⟨s, rfl, h⟩
  | cons p fields ih =>
    obtain ⟨hp, hfields⟩ := List.forall_mem_cons.1 hw
    obtain ⟨t, hfirst, ht⟩ := execPutbits_hasPut (s := s.relatch (plainCommand (.putbits p.1) p.2)) h hp
    obtain ⟨u, hrest, hu⟩ := ih ht hfields
    refine ⟨u, (putbitsSequence_cons_of_next hfirst).trans hrest, ?_⟩
    rwa [List.map_cons, List.sum_cons, ← Nat.add_assoc]

/-- Settles O57: fewer than 8 bits are pending, so the position is the quotient of the bits put by 8. -/
theorem tellCountsTheBytesEmitted : Obligations.TellCountsTheBytesEmitted := by
  intro s f name content fields hdev hname hfile hpos ha hm hf hcnt hbuf hw hsum
  have hstart : HasPut name 0 s.regs s.device := by
    refine ⟨⟨ha, hm, hf⟩, ⟨by simp [hcnt], by simp [hcnt], by simp [hbuf]⟩, content, f.pos,
      Device.holds_of_current hdev hname hfile, ?_⟩
    rw [hpos, Regs.pendingBits_length, hcnt]
    rfl
  obtain ⟨t, hput, hu, hfill, F, p, hF, hk⟩ := putbitsSequence_hasPut hstart hw
  have hp : (fields.map Prod.fst).sum / 8 = p := by
    have hpos := hfill.pos
    rw [Regs.pendingBits_length] at hk
    omega
  rw [hp] at hsum ⊢
  obtain ⟨u, htell, hresp⟩ := execTell_of_holds hu hF hsum
  exact ⟨t, u, hput, htell, hresp⟩

/-! ### The bits got -/

/-- A Read stream on the named file from which `k` bits have been got since position 0: they are the bits of the bytes
fetched but for the unconsumed ones, fewer than 8. -/
structure HasGot (path F : Bytes) (k : Nat) (r : Regs) (d : Device) : Prop where
  usable : r.Usable .read
  eofs : r.eofs = false
  count : r.cnt.toNat < 8
  file : ∃ p, d.Holds path F (some path) p ∧ 8 * p = k + r.cnt.toNat

theorem execGetbits_hasGot {path F : Bytes} {k w : Nat} {s : State} (h : HasGot path F k s.regs s.device) (hw : w ≤ 64)
    (hF : k + w ≤ 8 * F.length) :
    ∃ t v, execGetbits w s = .next t ∧ t.okValue = some v ∧ HasGot path F (k + w) t.regs t.device := by
  obtain ⟨hu, he, h7, p, hd, hk⟩ := h
  have hcount : ((F.drop p).take (fetchesNeeded w s.regs.cnt.toNat)).length = fetchesNeeded w s.regs.cnt.toNat :=
    List.length_take_of_le (by rw [List.length_drop, fetchesNeeded]; omega)
  obtain ⟨d, hdelivers, hd'⟩ := hd.delivers (List.take_prefix (fetchesNeeded w s.regs.cnt.toNat) (F.drop p))
  obtain ⟨t, v, hexec, hresp, -, htook⟩ := execGetbits_took hu he h7.le hdelivers hw hcount
  obtain rfl : t.device = d := Option.some.inj (htook.device.symm.trans hdelivers)
  have hlen := htook.length
  rw [hcount, bitsOf_length] at hlen
  rw [hcount] at hd'
  rw [fetchesNeeded] at hlen hd'
  exact ⟨t, v, hexec, by rw [State.okValue, hresp], htook.usable hu, htook.eofs.trans he, by omega, _, hd', by omega⟩

theorem getbitsSequence_cons_of_next {w : Nat} {ws : List Nat} {s t u : State} {v : Word64} {vs : List Word64}
    (hrun : runWith (.getbits w) 0 s = .next t) (hv : t.okValue = some v) (hseq : getbitsSequence ws t = some (vs, u)) :
    getbitsSequence (w :: ws) s = some (v :: vs, u) := by
  rw [getbitsSequence, hrun]
  simp only [hv, hseq, Option.map_some]

theorem getbitsSequence_hasGot {path F : Bytes} {k : Nat} {widths : List Nat} {s : State}
    (h : HasGot path F k s.regs s.device) (hw : ∀ w ∈ widths, w ≤ 64) (hF : k + widths.sum ≤ 8 * F.length) :
    ∃ vs t, getbitsSequence widths s = some (vs, t) ∧ HasGot path F (k + widths.sum) t.regs t.device := by
  induction widths generalizing k s with
  | nil => exact ⟨[], s, rfl, h⟩
  | cons w widths ih =>
    obtain ⟨hwidth, hwidths⟩ := List.forall_mem_cons.1 hw
    rw [List.sum_cons, ← Nat.add_assoc] at hF ⊢
    obtain ⟨t, v, hfirst, hv, ht⟩ :=
      execGetbits_hasGot (s := s.relatch (plainCommand (.getbits w) 0)) h hwidth (by omega)
    obtain ⟨vs, u, hrest, hu⟩ := ih ht hwidths hF
    exact ⟨v :: vs, u, getbitsSequence_cons_of_next hfirst hv hrest, hu⟩

/-- Settles O58: fewer than 8 bits are unconsumed, so the position is the bits got divided by 8, rounded up. -/
theorem tellCountsTheBytesFetched : Obligations.TellCountsTheBytesFetched := by
  intro s f name content widths hdev hname hfile hpos ha hm hf he hcnt hw hcontent hsum
  have hstart : HasGot name content 0 s.regs s.device :=
    ⟨⟨ha, hm, hf⟩, he, by simp [hcnt], f.pos, Device.holds_of_current hdev hname hfile, by simp [hpos, hcnt]⟩
  obtain ⟨vs, t, hget, hu, -, h7, p, hd, hk⟩ := getbitsSequence_hasGot hstart hw (by rwa [Nat.zero_add])
  have hp : (widths.sum + 7) / 8 = p := by omega
  rw [hp] at hsum ⊢
  obtain ⟨u, htell, hresp⟩ := execTell_of_holds hu hd hsum
  exact ⟨vs, t, u, hget, htell, hresp⟩

end Sys2Proof.Machine
end

section
/-! SUPPORT. Errors are responses (R173): from the invariant no step stops, a command answers no status but those R171
gives it, an error has value 0 (R176), and the fault state (R174). -/

namespace Sys2Proof.Machine

open Sys2Proof

/-! ### The numbers of the statuses, and the fault state -/

/-- Settles O5. -/
theorem statusCodesAreTheSpecs : Obligations.StatusCodesAreTheSpecs :=
  ⟨rfl, rfl, rfl, rfl, rfl, rfl, rfl, rfl, fun x => by cases x <;> decide⟩

/-- Settles O30: `FAULT` is the check after `MODE` and the width in the transfers, and after `ACTIVE` in SEEK and TELL. -/
theorem faultStateRefusesEverythingButClose : Obligations.FaultStateRefusesEverythingButClose := by
  intro s w wh ws ha hf
  simp only [← State.respond_zero_eq_rejected, ← State.respond_eq_after]
  refine ⟨fun hm => ?_, fun hm hw => ?_, fun hm => ?_, fun hm hw => ?_, ?_, ?_, execOpen_of_active ws ha, rfl⟩
  · simp [exec, execPutbit, ha, hm, hf]
  · simp [exec, execPutbits, Config.maxField, ha, hm, hf, Nat.not_lt.2 hw]
  · simp [exec, execGetbit, ha, hm, hf]
  · simp [exec, execGetbits, Config.maxField, ha, hm, hf, Nat.not_lt.2 hw]
  · simp [exec, execSeek, ha, hf]
  · simp [exec, execTell, ha, hf]

/-! ### From the invariant no step stops -/

/-- The laws of R32 exclude the one stop of an instruction: an unfaulted Write stream has a bit free (R26). -/
theorem exec_answers_of_laws {i : Instr} {s : State} (hb : s.regs.betweenCommands = true) :
    ∃ t, exec i s = .next t := by
  rcases everyInstructionAnswers i s with h | ⟨-, ha, hm, hf, hc, -⟩
  · exact h
  · obtain ⟨-, h1, -⟩ := Regs.write_laws hb ⟨ha, hm, hf⟩
    simp [hc] at h1

theorem runLatched_answers {s : State} (hs : (s.park .exec).inv = true) : ∃ t, runLatched s = .next t := by
  obtain ⟨hb, ⟨hl, -⟩, -⟩ := s.inv_park_exec_iff.1 hs
  obtain ⟨c, hc⟩ := Option.isSome_iff_exists.1 hl
  rcases hd : decode c.word with i | e
  · rw [runLatched_legal hc hd]
    exact exec_answers_of_laws hb
  · exact ⟨_, runLatched_illegal hc hd⟩

theorem idleStep_answers {s : State} (hf : s.fsm = .idle) (hs : s.inv = true) : ∃ t, idleStep s = .next t := by
  obtain ⟨hb, ⟨-, hp⟩, hheld⟩ := (State.inv_idle_iff hf).1 hs
  rcases ho : s.offered with _ | ⟨c, rest⟩ <;> simp only [idleStep, ho]
  · exact ⟨s, rfl⟩
  · exact runLatched_answers ((State.inv_park_iff rfl (s.accept c rest)).2 ⟨hb, ⟨rfl, by simp [hp]⟩, hheld⟩)

theorem putbitsResume_answers (w : Nat) (v : Word64) (s : State) : ∃ t, putbitsResume w v s = .next t := by
  rcases putbitsEmit_cases (rfl : putbitsResume w v s = _) with ⟨-, e⟩ | ⟨d, -, e⟩ | ⟨d, -, e⟩
  · exact ⟨_, e⟩
  · exact ⟨_, e⟩
  · rw [e]
    exact putbitsLoop_answers_of_fuel v _ (Nat.lt_succ_self w)

theorem getbitsResume_answers (w : Nat) (res : Word64) {s : State} (he : s.regs.eofs = false) :
    ∃ t, getbitsResume w res s = .next t := by
  rcases getbitsFetch_cases (rfl : getbitsResume w res s = _) he with
    ⟨-, e⟩ | ⟨d, -, e⟩ | ⟨d, -, e⟩ | ⟨b, d, -, e⟩
  · exact ⟨_, e⟩
  · exact ⟨_, e⟩
  · exact ⟨_, e⟩
  · rw [e]
    exact getbitsLoop_answers_of_fuel res _ (Nat.lt_succ_self w)

theorem fsmStep_answers {s : State} (hs : s.inv = true) : ∃ t, fsmStep s = .next t := by
  cases hf : s.fsm <;> rw [fsmStep, hf]
  case idle => exact idleStep_answers hf hs
  case exec => exact runLatched_answers (by rwa [State.park_self hf])
  case waitAlloc dir =>
    obtain ⟨t, -, h, -⟩ := openAlloc_answers dir s
    exact ⟨t, h⟩
  case waitOpen dir owns base =>
    obtain ⟨t, -, h, -⟩ := openPort_answers dir owns base s
    exact ⟨t, h⟩
  case waitWrite k =>
    cases k with
    | putbit => exact putbitEmit_answers s
    | putbits w v => exact putbitsResume_answers w.toNat v s
    | close => exact closeFlush_next s
  case waitRead k =>
    cases k with
    | getbit => exact getbitFetch_answers s
    | getbits w res => exact getbitsResume_answers w.toNat res (State.eofs_of_waitRead hf hs)
  case waitSeek wh => exact seekPort_answers wh s
  case waitTell => exact tellPort_answers s
  case waitClose =>
    obtain ⟨t, -, h, -⟩ := closePort_answers s
    exact ⟨t, h⟩
  case waitFree k =>
    cases k with
    | failedOpen base =>
      obtain ⟨t, -, h, -⟩ := openFree_answers base s
      exact ⟨t, h⟩
    | close =>
      obtain ⟨t, -, h, -⟩ := closeFree_answers s
      exact ⟨t, h⟩
  case resp => exact ⟨_, rfl⟩

/-- Settles O18: a command is latched wherever one is run, PUTBIT has a bit free, and both loops have fuel. -/
theorem noFaultFromTheInvariant : Obligations.NoFaultFromTheInvariant := by
  intro s hs
  cases hl : s.resetLine with
  | true => exact ⟨_, step_of_resetLine hl⟩
  | false =>
    rw [step_of_noReset hl]
    exact fsmStep_answers hs

/-! ### How a command can end -/

/-- The outcomes of a stage that is entered with the response `p` and answers the statuses `sts` alone: it waits with `p`
as it was, it answers `Ok` with a value, it raises with value 0 (R173), or it stops by name, which is no response
(assumption log 9). -/
inductive EndsWithin (sts : List Status) (p : Option Response) : Outcome → Prop where
  | waits {f : Fsm} {s : State} (hf : f ≠ .resp) (hp : s.response = p) : EndsWithin sts p (.next (s.park f))
  | answers {v : Word64} {s : State} (h : .ok ∈ sts) : EndsWithin sts p (.next (s.respond .ok v))
  | raises {st : Status} {s : State} (h : st ∈ sts) : EndsWithin sts p (.next (s.respond st 0))
  | stops (r : Fault) : EndsWithin sts p (.fault r)

section

variable {sts : List Status} {p : Option Response}

theorem EndsWithin.ite {c : Prop} [Decidable c] {o o' : Outcome} (h : EndsWithin sts p o) (h' : EndsWithin sts p o') :
    EndsWithin sts p (if c then o else o') := by
  split
  · exact h
  · exact h'

theorem EndsWithin.status_mem {t : State} {r : Response} (h : EndsWithin sts p (.next t)) (hf : t.fsm = .resp)
    (hr : t.response = some r) : r.status ∈ sts := by
  cases h with
  | waits hf' _ => exact absurd hf hf'
  | answers h => cases hr; exact h
  | raises h => cases hr; exact h

theorem EndsWithin.error_value {t : State} {r : Response} (h : EndsWithin sts none (.next t)) (hr : t.response = some r)
    (hst : r.status ≠ .ok) : r.value = 0 := by
  cases h with
  | waits _ hp => cases hp.symm.trans hr
  | answers _ => cases hr; exact absurd rfl hst
  | raises _ => cases hr; rfl

end

/-! ### The write path

R171 gives PUTBITS the statuses of PUTBIT, and GETBITS those of GETBIT. -/

theorem putbitEmit_endsWithin (s : State) : EndsWithin (allowedStatuses .putbit) s.response (putbitEmit s) := by
  rcases putbitEmit_cases s with ⟨-, e⟩ | ⟨d, -, e⟩ | ⟨d, -, e⟩ <;> rw [e]
  · exact .waits nofun rfl
  · exact .raises (by decide)
  · exact .answers (by decide)

theorem putbitPlace_endsWithin (s : State) : EndsWithin (allowedStatuses .putbit) s.response (putbitPlace s) :=
  .ite (putbitEmit_endsWithin (s.setRegs (s.regs.placeBit (operandBit s.operandA)))) (.answers (by decide))

theorem execPutbit_endsWithin (s : State) : EndsWithin (allowedStatuses .putbit) s.response (execPutbit s) :=
  .ite (.raises (by decide)) (.ite (.raises (by decide)) (.ite (.raises (by decide))
    (.ite (.stops _) (putbitPlace_endsWithin s))))

theorem putbitsEmit_endsWithin {loop : State → Outcome} (w : Nat) (v : Word64) (s : State)
    (hloop : ∀ u, EndsWithin (allowedStatuses .putbit) u.response (loop u)) :
    EndsWithin (allowedStatuses .putbit) s.response (putbitsEmit loop w v s) := by
  rcases putbitsEmit_cases (rfl : putbitsEmit loop w v s = _) with ⟨-, e⟩ | ⟨d, -, e⟩ | ⟨d, -, e⟩ <;> rw [e]
  · exact .waits nofun rfl
  · exact .raises (by decide)
  · exact hloop ((s.transacted d (.portWrite s.regs.buf .ok)).setRegs s.regs.emitted)

theorem putbitsLoop_endsWithin (fuel w : Nat) (v : Word64) (s : State) :
    EndsWithin (allowedStatuses .putbit) s.response (putbitsLoop fuel w v s) := by
  induction fuel generalizing w s with
  | zero => exact .stops _
  | succ fuel ih =>
    rw [putbitsLoop_succ]
    exact .ite (putbitsEmit_endsWithin _ v (s.setRegs (s.regs.fillByte _ v.toNat)) fun u => ih _ u)
      (.answers (by decide))

theorem execPutbits_endsWithin (w : Nat) (s : State) :
    EndsWithin (allowedStatuses .putbit) s.response (execPutbits w s) :=
  .ite (.raises (by decide)) (.ite (.raises (by decide)) (.ite (.raises (by decide)) (.ite (.raises (by decide))
    (putbitsLoop_endsWithin _ w _ s))))

/-! ### The read path -/

theorem getbitFetch_endsWithin (s : State) : EndsWithin (allowedStatuses .getbit) s.response (getbitFetch s) := by
  cases he : s.regs.eofs with
  | true =>
    rw [getbitFetch_of_eofs he]
    exact .raises (by decide)
  | false =>
    rcases getbitFetch_cases he with ⟨-, e⟩ | ⟨d, -, e⟩ | ⟨d, -, e⟩ | ⟨b, d, -, e⟩ <;> rw [e]
    · exact .waits nofun rfl
    · exact .raises (by decide)
    · exact .raises (by decide)
    · exact .answers (by decide)

theorem execGetbit_endsWithin (s : State) : EndsWithin (allowedStatuses .getbit) s.response (execGetbit s) :=
  .ite (.raises (by decide)) (.ite (.raises (by decide)) (.ite (.raises (by decide))
    (.ite (.answers (by decide)) (getbitFetch_endsWithin s))))

theorem getbitsFetch_endsWithin {loop : State → Outcome} (w : Nat) (res : Word64) (s : State)
    (hloop : ∀ u, EndsWithin (allowedStatuses .getbit) u.response (loop u)) :
    EndsWithin (allowedStatuses .getbit) s.response (getbitsFetch loop w res s) := by
  cases he : s.regs.eofs with
  | true =>
    rw [getbitsFetch_of_eofs he]
    exact .answers (by decide)
  | false =>
    rcases getbitsFetch_cases (rfl : getbitsFetch loop w res s = _) he with
      ⟨-, e⟩ | ⟨d, -, e⟩ | ⟨d, -, e⟩ | ⟨b, d, -, e⟩ <;> rw [e]
    · exact .waits nofun rfl
    · exact .answers (by decide)
    · exact .raises (by decide)
    · exact hloop ((s.transacted d (.portRead (.byte b))).setRegs (s.regs.load b 8))

theorem getbitsLoop_endsWithin (fuel w : Nat) (res : Word64) (s : State) :
    EndsWithin (allowedStatuses .getbit) s.response (getbitsLoop fuel w res s) := by
  induction fuel generalizing w res s with
  | zero => exact .stops _
  | succ fuel ih =>
    rw [getbitsLoop_succ]
    exact .ite (getbitsFetch_endsWithin _ _ (s.setRegs s.regs.drain) fun u => ih _ _ u) (.answers (by decide))

theorem execGetbits_endsWithin (w : Nat) (s : State) :
    EndsWithin (allowedStatuses .getbit) s.response (execGetbits w s) :=
  .ite (.raises (by decide)) (.ite (.raises (by decide)) (.ite (.raises (by decide)) (.ite (.raises (by decide))
    (.ite (.raises (by decide)) (getbitsLoop_endsWithin _ w 0 s)))))

/-! ### SEEK and TELL -/

theorem seekPort_endsWithin (wh : Whence) (s : State) :
    EndsWithin (allowedStatuses (.seek wh)) s.response (seekPort wh s) := by
  unfold seekPort State.portSeek
  rcases s.device.seek (operandOffset s.operandA) wh with _ | ⟨_ | _ | _, d⟩
  · exact .waits nofun rfl
  · exact .answers (by cases wh <;> decide)
  · exact .raises (by cases wh <;> decide)
  · exact .raises (by cases wh <;> decide)

theorem execSeek_endsWithin (wh : Whence) (s : State) :
    EndsWithin (allowedStatuses (.seek wh)) s.response (execSeek wh s) :=
  .ite (.raises (by cases wh <;> decide)) (.ite (.raises (by cases wh <;> decide))
    (seekPort_endsWithin wh (s.setRegs s.regs.discard)))

theorem tellPort_endsWithin (s : State) : EndsWithin (allowedStatuses .tell) s.response (tellPort s) := by
  unfold tellPort State.portTell
  rcases s.device.tell with _ | ⟨n | _, d⟩
  · exact .waits nofun rfl
  · exact .answers (by decide)
  · exact .raises (by decide)

theorem execTell_endsWithin (s : State) : EndsWithin (allowedStatuses .tell) s.response (execTell s) :=
  .ite (.raises (by decide)) (.ite (.raises (by decide)) (tellPort_endsWithin s))

/-! ### OPEN and CLOSE

The stages from `PortOpen` on serve OPEN with and without a supplied workspace (R76), so they are stated for both. -/

theorem openFree_endsWithin (ws : Bool) (base : Word64) (s : State) :
    EndsWithin (allowedStatuses (.openFile ws)) s.response (openFree base s) := by
  rcases openFree_cases base s with ⟨-, e⟩ | ⟨m, -, e⟩ <;> rw [e]
  · exact .waits nofun rfl
  · exact .raises (by cases ws <;> decide)

theorem openPort_endsWithin (ws : Bool) (dir : Mode) (owns : Bool) (base : Word64) (s : State) :
    EndsWithin (allowedStatuses (.openFile ws)) s.response (openPort dir owns base s) := by
  rcases hd : s.device.openFile s.openPath dir with _ | ⟨_ | _, d⟩
  · rw [openPort_of_unanswered hd]
    exact .waits nofun rfl
  · rw [openPort_of_ok hd]
    exact .answers (by cases ws <;> decide)
  · rw [openPort_of_err hd]
    exact .ite (openFree_endsWithin ws base ((s.transacted d (.portOpen s.openPath dir s.openRest .err)).bind none))
      (.raises (by cases ws <;> decide))

theorem openAlloc_endsWithin (dir : Mode) (s : State) :
    EndsWithin (allowedStatuses (.openFile false)) s.response (openAlloc dir s) := by
  rcases hm : s.allocator.alloc s.cfg.workspaceSize with _ | ⟨a | _, m⟩
  · rw [openAlloc_of_unanswered hm]
    exact .waits nofun rfl
  · rw [openAlloc_of_addr hm]
    exact openPort_endsWithin false dir true a (s.allocated m (.alloc s.cfg.workspaceSize (.addr a)))
  · rw [openAlloc_of_fail hm]
    exact .raises (by decide)

theorem openSupplied_endsWithin (dir : Mode) (s : State) :
    EndsWithin (allowedStatuses (.openFile true)) s.response (openSupplied dir s) :=
  .ite (.raises (by decide)) (.ite (.raises (by decide)) (openPort_endsWithin true dir false s.operandA s))

theorem execOpen_endsWithin (ws : Bool) (s : State) :
    EndsWithin (allowedStatuses (.openFile ws)) s.response (execOpen ws s) := by
  have hturnedAway : EndsWithin (allowedStatuses (.openFile ws)) s.response (raise .invalidArgument s) :=
    .raises (by cases ws <;> decide)
  refine .ite hturnedAway ?_
  rcases s.operandPath with _ | path
  · exact hturnedAway
  rcases s.operandMode with _ | m
  · exact hturnedAway
  dsimp only
  rcases modeDirection m with _ | dir
  · exact hturnedAway
  cases ws with
  | true => exact openSupplied_endsWithin dir s
  | false => exact openAlloc_endsWithin dir s

theorem closeFree_endsWithin (s : State) : EndsWithin (allowedStatuses .close) s.response (closeFree s) := by
  rcases closeFree_cases s with ⟨-, e⟩ | ⟨m, -, e⟩ <;> rw [e]
  · exact .waits nofun rfl
  · exact .answers (by decide)

theorem closePort_endsWithin (s : State) : EndsWithin (allowedStatuses .close) s.response (closePort s) := by
  rcases hd : s.device.close with _ | ⟨r, d⟩
  · rw [closePort_of_unanswered hd]
    exact .waits nofun rfl
  · rw [closePort_of_answer hd]
    exact .ite (closeFree_endsWithin ((s.transacted d (.portClose r)).bind none)) (.answers (by decide))

theorem closeFlush_endsWithin (s : State) : EndsWithin (allowedStatuses .close) s.response (closeFlush s) := by
  rcases closeFlush_answers s with ⟨-, e⟩ | ⟨r, d, -, e⟩ <;> rw [e]
  · exact .waits nofun rfl
  · exact closePort_endsWithin (s.transacted d (.portWrite s.regs.buf r))

theorem execClose_endsWithin (s : State) : EndsWithin (allowedStatuses .close) s.response (execClose s) :=
  .ite (.answers (by decide)) (.ite (closeFlush_endsWithin s) (closePort_endsWithin s))

/-! ### All instructions -/

theorem exec_endsWithin (i : Instr) (s : State) : EndsWithin (allowedStatuses i) s.response (exec i s) := by
  cases i with
  | wssize => exact .answers (by decide)
  | openFile ws => exact execOpen_endsWithin ws s
  | close => exact execClose_endsWithin s
  | putbit => exact execPutbit_endsWithin s
  | putbits w => exact execPutbits_endsWithin w s
  | getbit => exact execGetbit_endsWithin s
  | getbits w => exact execGetbits_endsWithin w s
  | seek wh => exact execSeek_endsWithin wh s
  | tell => exact execTell_endsWithin s

/-- Settles O23: each check and each answer of a port gives a status of the command's list. -/
theorem statusesOfEachCommand : Obligations.StatusesOfEachCommand := by
  intro i s t r h hf hr
  exact (h ▸ exec_endsWithin i s).status_mem hf hr

/-! ### The value of an error (R176) -/

/-- A latched word ends as its instruction does, or is illegal (R79). -/
theorem runLatched_endsWithin (s : State) : ∃ sts, EndsWithin sts s.response (runLatched s) := by
  rcases hl : s.latched with _ | c
  · exact ⟨[], by simpa [runLatched, hl] using .stops _⟩
  rcases hd : decode c.word with i | e
  · rw [runLatched_legal hl hd]
    exact ⟨_, exec_endsWithin i s⟩
  · rw [runLatched_illegal hl hd]
    exact ⟨[.invalidArgument], .raises (.head _)⟩

/-- A new response is the end of a command: an idle engine with nothing offered and the taking of a response offer
none. -/
theorem fsmStep_error_value {s t : State} {r : Response} (hnone : s.response = none) (h : fsmStep s = .next t)
    (hr : t.response = some r) (hst : r.status ≠ .ok) : r.value = 0 := by
  have hend {sts : List Status} {o : Outcome} (ho : EndsWithin sts s.response o) (h : o = .next t) : r.value = 0 := by
    rw [h, hnone] at ho
    exact ho.error_value hr hst
  cases hf : s.fsm <;> rw [fsmStep, hf] at h
  case idle =>
    rcases ho : s.offered with _ | ⟨c, rest⟩ <;> simp only [idleStep, ho] at h
    · cases h
      cases hnone.symm.trans hr
    · obtain ⟨sts, hrun⟩ := runLatched_endsWithin (s.accept c rest)
      exact hend hrun h
  case exec =>
    obtain ⟨sts, hrun⟩ := runLatched_endsWithin s
    exact hend hrun h
  case waitAlloc dir => exact hend (openAlloc_endsWithin dir s) h
  case waitOpen dir owns base => exact hend (openPort_endsWithin true dir owns base s) h
  case waitWrite k =>
    cases k with
    | putbit => exact hend (putbitEmit_endsWithin s) h
    | putbits w v => exact hend (putbitsEmit_endsWithin _ v s fun u => putbitsLoop_endsWithin _ _ v u) h
    | close => exact hend (closeFlush_endsWithin s) h
  case waitRead k =>
    cases k with
    | getbit => exact hend (getbitFetch_endsWithin s) h
    | getbits w res => exact hend (getbitsFetch_endsWithin _ res s fun u => getbitsLoop_endsWithin _ _ res u) h
  case waitSeek wh => exact hend (seekPort_endsWithin wh s) h
  case waitTell => exact hend (tellPort_endsWithin s) h
  case waitClose => exact hend (closePort_endsWithin s) h
  case waitFree k =>
    cases k with
    | failedOpen base => exact hend (openFree_endsWithin true base s) h
    | close => exact hend (closeFree_endsWithin s) h
  case resp =>
    cases h
    split at hr
    · cases hr
    · cases hnone.symm.trans hr

/-- Settles O24: a reset offers no response, and what a command ends with is an `Ok` or has value 0. -/
theorem everyErrorHasValueZero : Obligations.EveryErrorHasValueZero := by
  intro s t r h hnone hr hst
  cases hl : s.resetLine with
  | true =>
    rw [step_of_resetLine hl] at h
    cases h
    cases hr
  | false =>
    rw [step_of_noReset hl] at h
    exact fsmStep_error_value hnone h hr hst

end Sys2Proof.Machine
end
